-- ==== Sys2Proof/Word.lean ====
section
/-! DEFINITION. The word types of TPC and the byte order of its wire (R11, R65, R66). -/

namespace Sys2Proof

/-- A byte of the wire or of the scratch buffer. -/
abbrev Byte := BitVec 8

/-- A 16-bit unsigned quantity: a coordinate (R30) or a packed color (R31). -/
abbrev Word := BitVec 16

/-- A pin level (R21, R24, R25). -/
abbrev Bit := BitVec 1

/-- The 68-bit request word `REQ` (R91). -/
abbrev ReqWord := BitVec 68

/-- `BE16(v)` of R11: high byte first. -/
def be16 (v : Word) : List Byte := [v.extractLsb' 8 8, v.extractLsb' 0 8]

/-- A big-endian byte pair read as one 16-bit number, `hi ++ lo` of R208. -/
def ofBytes (hi lo : Byte) : Word := hi ++ lo

end Sys2Proof
end

