-- ==== Sys2Proof/Config.lean ====
section
/-! DEFINITION. The configuration record `Cfg` (R6 to R9), the constants the source fixes (R7, R8), the thirteen
wire commands as names (R101), and the one free value of the model (R233). -/

namespace Sys2Proof

/-- The thirteen panel commands the source names, in the order of R101. -/
inductive WireCommand where
  | swreset | slpout | colmod | madctl | porctrl | gctrl | vcoms
  | invon | noron | dispon | caset | raset | ramwr
  deriving DecidableEq, Repr

/-- All thirteen (R203: the set is closed). -/
def WireCommand.all : List WireCommand :=
  [.swreset, .slpout, .colmod, .madctl, .porctrl, .gctrl, .vcoms,
   .invon, .noron, .dispon, .caset, .raset, .ramwr]

/-- The payload length of each command (R101, R94); `none` for the open-ended memory write. -/
def WireCommand.payloadBytes : WireCommand → Option Nat
  | .swreset => some 0
  | .slpout => some 0
  | .colmod => some 1
  | .madctl => some 1
  | .porctrl => some 5
  | .gctrl => some 1
  | .vcoms => some 1
  | .invon => some 0
  | .noron => some 0
  | .dispon => some 0
  | .caset => some 4
  | .raset => some 4
  | .ramwr => none

/-- The configuration of one instance (R6 to R9). Constant for the instance's life (R46): no operation writes it.
Every field the source leaves OPEN is symbolic in every statement about a State (log 3). -/
structure Cfg where
  /-- `W`, logical pixels. -/
  w : Word
  /-- `H`, logical pixels. -/
  h : Word
  /-- `XOFF`. -/
  xoff : Word
  /-- `YOFF`. -/
  yoff : Word
  /-- `OPC_SWRESET`. -/
  opcSwreset : Byte
  /-- `OPC_SLPOUT`. -/
  opcSlpout : Byte
  /-- `OPC_COLMOD`. -/
  opcColmod : Byte
  /-- `OPC_MADCTL`. -/
  opcMadctl : Byte
  /-- `OPC_PORCTRL`. -/
  opcPorctrl : Byte
  /-- `OPC_GCTRL`. -/
  opcGctrl : Byte
  /-- `OPC_VCOMS`. -/
  opcVcoms : Byte
  /-- `OPC_INVON`. -/
  opcInvon : Byte
  /-- `OPC_NORON`. -/
  opcNoron : Byte
  /-- `OPC_DISPON`. -/
  opcDispon : Byte
  /-- `OPC_CASET`. -/
  opcCaset : Byte
  /-- `OPC_RASET`. -/
  opcRaset : Byte
  /-- `OPC_RAMWR`. -/
  opcRamwr : Byte
  /-- `VAL_COLMOD`. -/
  valColmod : Byte
  /-- `VAL_MADCTL`. -/
  valMadctl : Byte
  /-- `VAL_PORCH[0]`, VBP. -/
  valPorch0 : Byte
  /-- `VAL_PORCH[1]`, VFP. -/
  valPorch1 : Byte
  /-- `VAL_PORCH[2]`, PSON/HBP-high-bit. -/
  valPorch2 : Byte
  /-- `VAL_PORCH[3]`, HFP. -/
  valPorch3 : Byte
  /-- `VAL_PORCH[4]`, HBP. -/
  valPorch4 : Byte
  /-- `VAL_GCTRL`. -/
  valGctrl : Byte
  /-- `VAL_VCOM`. -/
  valVcom : Byte
  /-- `BL_DEFAULT_DUTY`. -/
  blDefaultDuty : Nat
  deriving DecidableEq, Repr

/-- The opcode parameter of each wire command (R101). -/
def Cfg.opcode (cfg : Cfg) : WireCommand → Byte
  | .swreset => cfg.opcSwreset
  | .slpout => cfg.opcSlpout
  | .colmod => cfg.opcColmod
  | .madctl => cfg.opcMadctl
  | .porctrl => cfg.opcPorctrl
  | .gctrl => cfg.opcGctrl
  | .vcoms => cfg.opcVcoms
  | .invon => cfg.opcInvon
  | .noron => cfg.opcNoron
  | .dispon => cfg.opcDispon
  | .caset => cfg.opcCaset
  | .raset => cfg.opcRaset
  | .ramwr => cfg.opcRamwr

/-- The payload of `PORCTRL`, five bytes in the source's order (R194). -/
def Cfg.porch (cfg : Cfg) : List Byte :=
  [cfg.valPorch0, cfg.valPorch1, cfg.valPorch2, cfg.valPorch3, cfg.valPorch4]

/-- REFCFG of 95_test_vectors. PRESUMED (log 3): the opcodes and `VAL_COLMOD` are the spec's general-knowledge
defaults of R9. DESIGN CHOICE (log 3): the other payload values, the offsets and the duty are the reference
configuration's, of which the spec says they are test data only. -/
def Cfg.reference : Cfg where
  w := 135
  h := 240
  xoff := 52
  yoff := 40
  opcSwreset := 0x01
  opcSlpout := 0x11
  opcColmod := 0x3A
  opcMadctl := 0x36
  opcPorctrl := 0xB2
  opcGctrl := 0xB7
  opcVcoms := 0xBB
  opcInvon := 0x21
  opcNoron := 0x13
  opcDispon := 0x29
  opcCaset := 0x2A
  opcRaset := 0x2B
  opcRamwr := 0x2C
  valColmod := 0x55
  valMadctl := 0x00
  valPorch0 := 0x0C
  valPorch1 := 0x0C
  valPorch2 := 0x00
  valPorch3 := 0x33
  valPorch4 := 0x33
  valGctrl := 0x35
  valVcom := 0x19
  blDefaultDuty := 255

/-- `CHUNK_COLORS` (R7). -/
def Config.chunkColors : Nat := 512

/-- `MAX_XFER_BYTES` (R7). -/
def Config.maxXferBytes : Nat := 1024

/-- `SCR_BYTES` (R7). -/
def Config.scrBytes : Nat := 1024

/-- `T_RESLOW` in milliseconds (R8). -/
def Config.tReslow : Nat := 20

/-- `T_SWRESET` in milliseconds (R8). -/
def Config.tSwreset : Nat := 150

/-- `T_SLPOUT` in milliseconds (R8). -/
def Config.tSlpout : Nat := 120

/-- `T_VCOM` in milliseconds (R8). -/
def Config.tVcom : Nat := 10

/-- `T_DISPON` in milliseconds (R8). -/
def Config.tDispon : Nat := 150

/-- FREE VALUE (log 6): the level of `CS` after failed transfer `k`, which R233 leaves unspecified. It has no body,
so no proof can see it. -/
opaque Config.csAfterFault : Nat → Bit

end Sys2Proof
end

