-- ==== Sys2Proof/Syntax.lean ====
section
/-! DEFINITION. The instructions: one constructor per row of spec/opcode_table.json. -/

namespace Sys2Proof

/-- The eight host operations (R90) with their operands (R93), and the thirteen wire commands (R101) as the
pseudo-operations of R103. A stream operation carries its stream, so stream and count are one value (R234). -/
inductive Instr where
  /-- `CMD b` (R120). -/
  | cmd (b : Byte)
  /-- `DAT [b0, ...]` (R123). -/
  | dat (bytes : List Byte)
  /-- `RST` (R141). -/
  | rst
  /-- `INIT` (R146). -/
  | init
  /-- `WIN x0, x1, y0, y1` (R154). -/
  | win (x0 x1 y0 y1 : Word)
  /-- `RAMWR`, the operation (R161). -/
  | ramwr
  /-- `PACK r, g, b` (R171). -/
  | pack (r g b : Byte)
  /-- `SER [c0, ...]` (R175). -/
  | ser (colors : List Word)
  /-- `SWRESET` (R190). -/
  | swreset
  /-- `SLPOUT` (R191). -/
  | slpout
  /-- `COLMOD` (R192). -/
  | colmod
  /-- `MADCTL` (R193). -/
  | madctl
  /-- `PORCTRL` (R194). -/
  | porctrl
  /-- `GCTRL` (R195). -/
  | gctrl
  /-- `VCOMS` (R196). -/
  | vcoms
  /-- `INVON` (R197). -/
  | invon
  /-- `NORON` (R198). -/
  | noron
  /-- `DISPON` (R199). -/
  | dispon
  /-- `CASET` (R200). -/
  | caset
  /-- `RASET` (R201). -/
  | raset
  /-- `RAMWR.wire`, the memory-write command byte (R202). -/
  | ramwrWire
  deriving DecidableEq, Repr

end Sys2Proof
end

