-- ==== Sys2Proof/WellFormed.lean ====
section
/-! DEFINITION. What can be encoded (R93) and which configurations are valid (R10). -/

namespace Sys2Proof

/-- A stream's length must fit the 32-bit count of format L (R33, R93); every other operand fits by its type. -/
def Instr.wellFormed : Instr → Bool
  | .dat bytes => decide (bytes.length < 2 ^ 32)
  | .ser colors => decide (colors.length < 2 ^ 32)
  | .cmd _ => true
  | .rst => true
  | .init => true
  | .win _ _ _ _ => true
  | .ramwr => true
  | .pack _ _ _ => true
  | .swreset => true
  | .slpout => true
  | .colmod => true
  | .madctl => true
  | .porctrl => true
  | .gctrl => true
  | .vcoms => true
  | .invon => true
  | .noron => true
  | .dispon => true
  | .caset => true
  | .raset => true
  | .ramwrWire => true

/-- `1 <= W` and `(W - 1) + XOFF <= 65535` (R10), for one axis: the size and its offset. -/
def Cfg.axisValid (size off : Word) : Bool :=
  decide (1 ≤ size.toNat) && decide (size.toNat - 1 + off.toNat ≤ 65535)

/-- The thirteen opcodes are pairwise distinct (R10). -/
def Cfg.opcodesDistinct (cfg : Cfg) : Bool :=
  decide (WireCommand.all.map cfg.opcode).Nodup

/-- R10's inequalities about the sizes the source fixes. -/
def Config.sizesValid : Bool :=
  decide (1 ≤ Config.chunkColors) && decide (2 * Config.chunkColors ≤ Config.maxXferBytes)
    && decide (2 * Config.chunkColors ≤ Config.scrBytes)

/-- A valid configuration (R10). -/
def Cfg.valid (cfg : Cfg) : Bool :=
  Cfg.axisValid cfg.w cfg.xoff && Cfg.axisValid cfg.h cfg.yoff && cfg.opcodesDistinct && Config.sizesValid

end Sys2Proof
end

