-- ==== Sys2Proof/Decode.lean ====
section
/-! DEFINITION. The request decoder and the wire-command decoder, total on any bits, rejecting by name, and the
encoder (R90, R91, R93, R99, R101, R103). -/

namespace Sys2Proof

/-- The source stream that comes with a request (R91): none, bytes for `DAT`, colors for `SER` (R62). -/
inductive Source where
  | none
  | bytes (l : List Byte)
  | colors (l : List Word)
  deriving DecidableEq, Repr

/-- What is encoded: a request word with its stream (R91), or the command byte of a hand-built frame, which is how
the wire rows of the opcode table spell an instruction (R101, R103; log 11). -/
inductive Encoded where
  | request (word : ReqWord) (src : Source)
  | wire (opcode : Byte)
  deriving DecidableEq, Repr

/-- Why the decoder rejects. -/
inductive DecodeError where
  /-- Request code 0x0 or 0x9 to 0xF (R99): the port answers REFUSED. -/
  | reservedOp
  /-- The stream is not of the kind and length the request states (R234 rules the case out; log 12). -/
  | streamMismatch
  /-- A wire byte outside the thirteen opcodes (R203). -/
  | unknownWireOpcode
  deriving DecidableEq, Repr

/-- What the decoder answers. -/
inductive Decoded where
  | instr (i : Instr)
  | reject (e : DecodeError)
  deriving DecidableEq, Repr

/-- `REQ[67:64]` (R91). -/
def ReqWord.op (w : ReqWord) : BitVec 4 := w.extractLsb' 64 4

/-- `arg[31:0]` of format L (R93). -/
def ReqWord.count (w : ReqWord) : BitVec 32 := w.extractLsb' 0 32

/-- Format L for `DAT`: the stream must have the stated length. -/
def decodeDat (count : BitVec 32) : Source → Decoded
  | .bytes l => if l.length = count.toNat then .instr (.dat l) else .reject .streamMismatch
  | .none => .reject .streamMismatch
  | .colors _ => .reject .streamMismatch

/-- Format L for `SER`. -/
def decodeSer (count : BitVec 32) : Source → Decoded
  | .colors l => if l.length = count.toNat then .instr (.ser l) else .reject .streamMismatch
  | .none => .reject .streamMismatch
  | .bytes _ => .reject .streamMismatch

/-- The request decoder (R90, R93, R99). Bits a format does not name are ignored. -/
def decodeRequest (w : ReqWord) (src : Source) : Decoded :=
  match (ReqWord.op w).toNat with
  | 1 => .instr (.cmd (w.extractLsb' 0 8))
  | 2 => decodeDat (ReqWord.count w) src
  | 3 => .instr .rst
  | 4 => .instr .init
  | 5 => .instr (.win (w.extractLsb' 48 16) (w.extractLsb' 32 16) (w.extractLsb' 16 16) (w.extractLsb' 0 16))
  | 6 => .instr .ramwr
  | 7 => .instr (.pack (w.extractLsb' 16 8) (w.extractLsb' 8 8) (w.extractLsb' 0 8))
  | 8 => decodeSer (ReqWord.count w) src
  | _ => .reject .reservedOp

/-- The wire command whose opcode a byte is, if any (R101). -/
def decodeWire (cfg : Cfg) (b : Byte) : Option WireCommand :=
  WireCommand.all.find? (fun c => cfg.opcode c == b)

/-- The instruction a wire mnemonic stands for (R103). -/
def WireCommand.instr : WireCommand → Instr
  | .swreset => .swreset
  | .slpout => .slpout
  | .colmod => .colmod
  | .madctl => .madctl
  | .porctrl => .porctrl
  | .gctrl => .gctrl
  | .vcoms => .vcoms
  | .invon => .invon
  | .noron => .noron
  | .dispon => .dispon
  | .caset => .caset
  | .raset => .raset
  | .ramwr => .ramwrWire

/-- The decoder of everything the port can carry. -/
def decode (cfg : Cfg) : Encoded → Decoded
  | .request w src => decodeRequest w src
  | .wire b =>
    match decodeWire cfg b with
    | some c => .instr c.instr
    | none => .reject .unknownWireOpcode

/-- A request word from its code and its 64-bit argument field (R91). -/
def reqWord (op : BitVec 4) (arg : BitVec 64) : ReqWord := op ++ arg

/-- The encoder (R90, R93, R101, R102). Ignored bits are sent as zero. -/
def encode (cfg : Cfg) : Instr → Encoded
  | .cmd b => .request (reqWord 1 (b.setWidth 64)) .none
  | .dat bytes => .request (reqWord 2 ((BitVec.ofNat 32 bytes.length).setWidth 64)) (.bytes bytes)
  | .rst => .request (reqWord 3 0) .none
  | .init => .request (reqWord 4 0) .none
  | .win x0 x1 y0 y1 => .request (reqWord 5 (x0 ++ x1 ++ y0 ++ y1)) .none
  | .ramwr => .request (reqWord 6 0) .none
  | .pack r g b => .request (reqWord 7 ((r ++ g ++ b).setWidth 64)) .none
  | .ser colors => .request (reqWord 8 ((BitVec.ofNat 32 colors.length).setWidth 64)) (.colors colors)
  | .swreset => .wire cfg.opcSwreset
  | .slpout => .wire cfg.opcSlpout
  | .colmod => .wire cfg.opcColmod
  | .madctl => .wire cfg.opcMadctl
  | .porctrl => .wire cfg.opcPorctrl
  | .gctrl => .wire cfg.opcGctrl
  | .vcoms => .wire cfg.opcVcoms
  | .invon => .wire cfg.opcInvon
  | .noron => .wire cfg.opcNoron
  | .dispon => .wire cfg.opcDispon
  | .caset => .wire cfg.opcCaset
  | .raset => .wire cfg.opcRaset
  | .ramwrWire => .wire cfg.opcRamwr

/-- The stream of zeros that stands for a request's unlisted operand words (log 26). -/
def zeroSource (w : ReqWord) : Source :=
  match (ReqWord.op w).toNat with
  | 2 => .bytes (List.replicate (ReqWord.count w).toNat 0)
  | 8 => .colors (List.replicate (ReqWord.count w).toNat 0)
  | _ => .none

/-- An instruction given by its bits as spec/opcode_table.json numbers them: a row of 8 bits is a wire command, a
longer one a request word. Bits above `nbits` are zero; `none` where the bits do not fit the format (log 26). -/
def tableEncoded (nbits w : Nat) : Option Encoded :=
  let bits := w % 2 ^ nbits
  if nbits ≤ 8 then some (.wire (BitVec.ofNat 8 bits))
  else if bits < 2 ^ 68 then
    some (.request (BitVec.ofNat 68 bits) (zeroSource (BitVec.ofNat 68 bits)))
  else none

/-- The instruction the decoder reads from an instruction word of the opcode table, under the table's own opcode
values, which are `Cfg.reference`'s. -/
def decodeTableWord (nbits w : Nat) : Option Instr :=
  match tableEncoded nbits w with
  | none => none
  | some e =>
    match decode Cfg.reference e with
    | .instr i => some i
    | .reject _ => none

end Sys2Proof
end

