-- ==== Sys2Proof/Machine/Memory.lean ====
section
/-! DEFINITION. Sparse memory as a list of cells by rising address: the panel's frame memory (R205), in which an
unlisted address has no value (log 13), and the scratch buffer (R34, R61), in which an unlisted byte is 0 (log 5). -/

namespace Sys2Proof.Machine

/-- The canonical form: addresses strictly rise. -/
abbrev Memory.wf {α : Type} (m : List (Nat × α)) : Prop := m.Pairwise (fun p q => p.1 < q.1)

/-- What an address holds; an unlisted address has no value. -/
def Memory.read {α : Type} (m : List (Nat × α)) (a : Nat) : Option α :=
  match m with
  | [] => none
  | (b, v) :: t => if b = a then some v else Memory.read t a

/-- Write one cell, keeping the order. -/
def Memory.write {α : Type} (m : List (Nat × α)) (a : Nat) (v : α) : List (Nat × α) :=
  match m with
  | [] => [(a, v)]
  | (b, w) :: t =>
    if a < b then (a, v) :: (b, w) :: t
    else if a = b then (a, v) :: t
    else (b, w) :: Memory.write t a v

/-- Take away every cell an address has. -/
def Memory.erase {α : Type} (m : List (Nat × α)) (a : Nat) : List (Nat × α) :=
  match m with
  | [] => []
  | (b, w) :: t => if a = b then Memory.erase t a else (b, w) :: Memory.erase t a

/-- A list of cells in any order, put into canonical form; of two cells for one address the later counts. -/
def Memory.ofCells {α : Type} (cells : List (Nat × α)) : List (Nat × α) :=
  cells.foldl (fun m c => Memory.write m c.1 c.2) []

/-- The canonical form of the scratch buffer: addresses strictly rise, and no listed byte is 0. -/
abbrev Scratch.wf (m : List Host.Cell) : Prop := Memory.wf m ∧ ∀ c ∈ m, c.2 ≠ 0

/-- `MemRead(SCR, a, 1)` (R34): every byte holds a value. -/
def Scratch.read (m : List Host.Cell) (a : Nat) : Byte := (Memory.read m a).getD 0

/-- `MemWrite(SCR, a, 1, v)`: a byte written as 0 is unlisted. -/
def Scratch.write (m : List Host.Cell) (a : Nat) (v : Byte) : List Host.Cell :=
  if v = 0 then Memory.erase m a else Memory.write m a v

/-- Write a list of bytes from an address upward. -/
def Scratch.writeFrom (m : List Host.Cell) (a : Nat) (vs : List Byte) : List Host.Cell :=
  match vs with
  | [] => m
  | v :: vs' => Scratch.writeFrom (Scratch.write m a v) (a + 1) vs'

/-- The `n` bytes from an address upward. -/
def Scratch.readFrom (m : List Host.Cell) (a n : Nat) : List Byte :=
  match n with
  | 0 => []
  | k + 1 => Scratch.read m a :: Scratch.readFrom m (a + 1) k

end Sys2Proof.Machine
end

