-- ==== Sys2Proof/Machine/State.lean ====
section
/-! DEFINITION. The state of TPC (R20 to R46), of what stands around it (R42), why a step can stop, and the state
after construction (R44, R260). -/

namespace Sys2Proof.Machine

/-- Why the machine stops with a fault of the MODEL. TPC's own fault, BusFault, is no such stop: its entry is a next
state (R231). -/
inductive Fault where
  /-- `Xfer` with no byte, which R122 excludes by its precondition. Raised by `State.xfer`. Safe: no state that keeps
  `State.StagingInv` reaches it. -/
  | emptyTransfer
  deriving DecidableEq, Repr

/-- Why the model gives no meaning. -/
inductive Refusal where
  /-- An instruction that has no meaning yet. Raised by no arm of `exec`. Safe. -/
  | notModelled (mnemonic : String)
  /-- A request whose stream is not of the stated kind and length, which R234 says the model cannot state (log 12).
  Raised by `fetch`. Safe. -/
  | streamMismatch
  /-- A wire pseudo-operation outside the thirteen, which R203 says does not exist (log 11). Raised by `fetch`.
  Safe. -/
  | unknownWireOpcode
  /-- Construction from an invalid configuration (R10). Raised by `State.construct`, by no step. Safe. -/
  | invalidConfig
  deriving DecidableEq, Repr

/-- The panel-state register `PSTATE` (R29). -/
inductive PState where
  | unpowered
  | reset
  | sleepOut
  | configured
  | active
  deriving DecidableEq, Repr

/-- The lifecycle stage `LIFE` (R40). -/
inductive Life where
  | constructed
  | tornDown
  deriving DecidableEq, Repr

/-- The event kinds of `TRACE` (R13). -/
inductive Event where
  | xfer (dc : Bit) (bytes : List Byte)
  | xferFail (dc : Bit) (bytes : List Byte)
  | res (level : Bit)
  | wait (ms : Nat)
  | bl (duty : Nat)
  deriving DecidableEq, Repr

/-- The fault information `FINFO` (R28). -/
structure FInfo where
  cause : Nat
  xfer : Nat
  dc : Bit
  op : BitVec 4
  step : Nat
  deriving DecidableEq, Repr

/-- The responses of the response port (R95). -/
inductive Response where
  | done
  | donePacked (pk : Word)
  | faulted
  | refused
  deriving DecidableEq, Repr

/-- What the host presents on the request port: a request or wire pseudo-operation, or the TEARDOWN strobe (R91,
R268). -/
inductive PortItem where
  | operation (e : Encoded)
  | teardown
  deriving DecidableEq, Repr

/-- Whether the contract R205 to R208 still describes the panel (log 13). -/
inductive Trust where
  /-- It does. -/
  | trusted
  /-- It does not until the panel is reset again: the panel's condition is unknown (R261), or traffic outside the
  contract reached it (U5, U6, R271, R272). -/
  | suspect
  /-- No claim from here on: a mandatory delay was violated (U1) or a transfer failed (U9). -/
  | refused
  deriving DecidableEq, Repr

/-- The panel's own state (R205). `none` is a part that the contract no longer gives a value (log 13). -/
structure Panel where
  trust : Trust
  /-- Milliseconds of mandatory delay still owed (R270). -/
  due : Nat
  /-- `(P.xs, P.xe)`. -/
  cols : Option (Word × Word)
  /-- `(P.ys, P.ye)`. -/
  rows : Option (Word × Word)
  /-- `(P.col, P.row)`; natural numbers, since `P.row` passes `P.ye` when a window is full (R208). -/
  ptr : Option (Nat × Nat)
  /-- `P.writing`. -/
  writing : Option Bool
  /-- The byte latch of a half-received pixel. -/
  half : Option Byte
  /-- The fixed-length command whose payload is arriving, and the bytes received of it (R94). -/
  pending : Option (WireCommand × List Byte)
  /-- `P.mem`: the addresses (see `pixelAddr`) whose color the contract gives, rising. -/
  mem : List (Nat × Word)
  /-- Out of sleep (R191). -/
  awake : Option Bool
  /-- The color-mode byte (R192). -/
  colmod : Option Byte
  /-- The orientation byte (R193). -/
  madctl : Option Byte
  /-- The five porch bytes (R194). -/
  porch : Option (List Byte)
  /-- The gate-control byte (R195). -/
  gctrl : Option Byte
  /-- The VCOM byte (R196). -/
  vcom : Option Byte
  /-- Display inversion (R197). -/
  inverted : Option Bool
  /-- Normal display mode (R198). -/
  normalMode : Option Bool
  /-- Display output (R199). -/
  displayOn : Option Bool
  deriving DecidableEq, Repr

/-- A panel to whose parts the contract gives no value: what traffic outside it, or a reset, leaves (logs 16, 19). -/
def Panel.unspecified : Panel where
  trust := .suspect
  due := 0
  cols := none
  rows := none
  ptr := none
  writing := none
  half := none
  pending := none
  mem := []
  awake := none
  colmod := none
  madctl := none
  porch := none
  gctrl := none
  vcom := none
  inverted := none
  normalMode := none
  displayOn := none

/-- The panel's parts at construction, each a draw: R205 leaves the initial value of every part unspecified, U3 and U11
say any value. -/
structure PanelDraw where
  cols : Word × Word
  rows : Word × Word
  ptr : Nat × Nat
  writing : Bool
  /-- A half-received pixel, where one is held. -/
  half : Option Byte
  /-- The colors of the frame memory, at as many addresses (see `pixelAddr`) as the panel has; U8 gives no size. -/
  mem : List (Nat × Word)
  awake : Bool
  colmod : Byte
  madctl : Byte
  porch : List Byte
  gctrl : Byte
  vcom : Byte
  inverted : Bool
  normalMode : Bool
  displayOn : Bool
  deriving DecidableEq, Repr

/-- The panel at construction (R205, R261): every part holds its draw, and no claim is made about any of them. DESIGN
CHOICE (log 30): no mandatory delay is owed to it and no payload is awaited, though its condition is unknown (U11). -/
def PanelDraw.panel (d : PanelDraw) : Panel where
  trust := .suspect
  due := 0
  cols := some d.cols
  rows := some d.rows
  ptr := some d.ptr
  writing := some d.writing
  half := d.half
  pending := none
  mem := Memory.ofCells d.mem
  awake := some d.awake
  colmod := some d.colmod
  madctl := some d.madctl
  porch := some d.porch
  gctrl := some d.gctrl
  vcom := some d.vcom
  inverted := some d.inverted
  normalMode := some d.normalMode
  displayOn := some d.displayOn

/-- The panel's draws of `State.reset`. DESIGN CHOICE (log 34): zeros, asleep, and no address of the frame memory
listed. -/
def PanelDraw.zero : PanelDraw where
  cols := (0, 0)
  rows := (0, 0)
  ptr := (0, 0)
  writing := false
  half := none
  mem := []
  awake := false
  colmod := 0
  madctl := 0
  porch := [0, 0, 0, 0, 0]
  gctrl := 0
  vcom := 0
  inverted := false
  normalMode := false
  displayOn := false

/-- The state: R20's elements first, then the parameters and the environment of R42 that a step reads or feeds. -/
structure State where
  /-- `Cfg` (R46): never written. -/
  cfg : Cfg
  cs : Bit
  dc : Bit
  res : Bit
  busy : Bool
  fault : Bool
  finfo : FInfo
  pstate : PState
  x0 : Word
  x1 : Word
  y0 : Word
  y1 : Word
  cr : Byte
  cg : Byte
  cb : Byte
  pk : Word
  cmdb : Byte
  cnt : BitVec 32
  /-- `SCR`: its bytes that are not 0, by rising index (R34, log 5). -/
  scr : List Host.Cell
  /-- `SLEN`, 0 to 1024 (R35). -/
  slen : Nat
  xcnt : Nat
  seqpc : Nat
  opr : BitVec 4
  bld : Option Nat
  life : Life
  trace : List Event
  /-- `SRCB` of the `DAT` in progress (R62). -/
  srcb : List Byte
  /-- `SRCC` of the `SER` in progress (R62). -/
  srcc : List Word
  /-- The request port: what the host presents, oldest first (R91). -/
  port : List PortItem
  /-- The response port: what has been answered, oldest first (R95). -/
  responses : List Response
  /-- The bus status oracle: the transfer indices for which the bus reports an error (R232, log 2). -/
  busErrs : List Nat
  panel : Panel
  deriving DecidableEq, Repr

/-- The elements whose value after construction R44 leaves unspecified: "a draw made once at construction". -/
structure Draws where
  dc : Bit
  res : Bit
  finfo : FInfo
  x0 : Word
  x1 : Word
  y0 : Word
  y1 : Word
  cr : Byte
  cg : Byte
  cb : Byte
  pk : Word
  cmdb : Byte
  cnt : BitVec 32
  /-- The bytes of `SCR` from index 0 on; those the list does not reach are 0. -/
  scr : List Byte
  opr : BitVec 4
  /-- The panel's parts (R205). -/
  panel : PanelDraw
  deriving DecidableEq, Repr

/-- The draws of `State.reset`: zeros. DESIGN CHOICE (log 4; for `SCR`, log 5; for the panel, log 34). -/
def Draws.zero : Draws where
  dc := 0
  res := 0
  finfo := { cause := 0, xfer := 0, dc := 0, op := 0, step := 0 }
  x0 := 0
  x1 := 0
  y0 := 0
  y1 := 0
  cr := 0
  cg := 0
  cb := 0
  pk := 0
  cmdb := 0
  cnt := 0
  scr := []
  opr := 0
  panel := PanelDraw.zero

/-- The state after construction from `cfg` with the draws `d`, on a bus whose oracle is `errs` (R44, R260, R232). -/
def State.constructed (cfg : Cfg) (d : Draws) (errs : List Nat) : State where
  cfg := cfg
  cs := 1
  dc := d.dc
  res := d.res
  busy := false
  fault := false
  finfo := d.finfo
  pstate := .unpowered
  x0 := d.x0
  x1 := d.x1
  y0 := d.y0
  y1 := d.y1
  cr := d.cr
  cg := d.cg
  cb := d.cb
  pk := d.pk
  cmdb := d.cmdb
  cnt := d.cnt
  scr := Scratch.writeFrom [] 0 (d.scr.take Config.scrBytes)
  slen := 0
  xcnt := 0
  seqpc := 0
  opr := d.opr
  bld := none
  life := .constructed
  trace := []
  srcb := []
  srcc := []
  port := []
  responses := []
  busErrs := errs
  panel := d.panel.panel

/-- Construction (R260): one instance from a VALID configuration; an invalid one is refused (R10). -/
def State.construct (cfg : Cfg) (d : Draws) (errs : List Nat) : Host.Outcome State Fault Refusal :=
  if cfg.valid then .next (State.constructed cfg d errs) else .refused .invalidConfig

/-- The machine right after reset: constructed from the spec's reference configuration (log 3), with the named draws
(log 4) and no bus error scheduled (log 2). -/
def State.reset : State := State.constructed Cfg.reference Draws.zero []

end Sys2Proof.Machine
end

