-- ==== Sys2Proof/Machine/Flags.lean ====
section
/-! DEFINITION. Flags and views: acceptance (R92), the bus status oracle (R232), the STATUS byte (R45), the encodings of
PSTATE and LIFE (R29, R40), and the flat trace (R13). -/

namespace Sys2Proof.Machine

/-- The 3-bit code of `PSTATE` (R29). -/
def PState.code : PState → BitVec 3
  | .unpowered => 0
  | .reset => 1
  | .sleepOut => 2
  | .configured => 3
  | .active => 4

/-- The 2-bit code of `LIFE` (R40). -/
def Life.code : Life → BitVec 2
  | .constructed => 0
  | .tornDown => 1

/-- The port takes a request: `LIFE = Constructed`, `FAULT = 0`, `BUSY = 0` (R92). -/
def State.ready (s : State) : Bool := decide (s.life = .constructed) && !s.fault && !s.busy

/-- TPC is halted for good: after a fault (R235) or after teardown (R268). -/
def State.halted (s : State) : Bool := s.fault || decide (s.life = .tornDown)

/-- `BusErr(k)` (R232). -/
def State.busErr (s : State) (k : Nat) : Bool := s.busErrs.contains k

/-- `STATUS` (R45): `[0] = BUSY`, `[1] = FAULT`, `[4:2] = PSTATE`, `[7:5] = 0`. -/
def State.status (s : State) : BitVec 8 :=
  (0 : BitVec 3) ++ s.pstate.code ++ BitVec.ofBool s.fault ++ BitVec.ofBool s.busy

/-- What is left of an event in the flat trace: one pair per byte of a completed transfer, every other event as it
is (R13). -/
inductive FlatEvent where
  | byte (dc : Bit) (b : Byte)
  | other (e : Event)
  deriving DecidableEq, Repr

/-- The flat trace of one event (R13). -/
def Event.flat : Event → List FlatEvent
  | .xfer dc bytes => bytes.map (FlatEvent.byte dc)
  | .xferFail dc bytes => [.other (.xferFail dc bytes)]
  | .res l => [.other (.res l)]
  | .wait n => [.other (.wait n)]
  | .bl d => [.other (.bl d)]

/-- The flat trace (R13). -/
def flatTrace (es : List Event) : List FlatEvent := es.flatMap Event.flat

/-- The bytes an event put on the wire whole. -/
def Event.sentBytes : Event → List Byte
  | .xfer _ bytes => bytes
  | .xferFail _ _ => []
  | .res _ => []
  | .wait _ => []
  | .bl _ => []

/-- An event is a started transfer (R36). -/
def Event.isTransfer : Event → Bool
  | .xfer _ _ => true
  | .xferFail _ _ => true
  | .res _ => false
  | .wait _ => false
  | .bl _ => false

/-- The minimum delay an event guarantees, in milliseconds (R250). -/
def Event.delay : Event → Nat
  | .wait n => n
  | .xfer _ _ => 0
  | .xferFail _ _ => 0
  | .res _ => 0
  | .bl _ => 0

end Sys2Proof.Machine
end

