-- ==== Sys2Proof/Machine/Operands.lean ====
section
/-! DEFINITION. Operand processing: the window translation of WIN (R98, R155, R156), the RGB565 packing of PACK (R171),
the chunking of SER (R175, R178), and the serial bit order (R66). -/

namespace Sys2Proof.Machine

/-- `min(a, b)` on unsigned words (R11). -/
def minWord (a b : Word) : Word := if a.toNat ≤ b.toNat then a else b

/-- The clamp of a coordinate to its bound, `min(c, B - 1)` (R155). -/
def clamp (c bound : Word) : Word := minWord c (bound - 1)

/-- Clamp, then add the panel offset (R154, R156). -/
def controllerCoord (c bound off : Word) : Word := clamp c bound + off

/-- A logical x as a controller column: bound `W`, offset `XOFF`. -/
def translateX (cfg : Cfg) (c : Word) : Word := controllerCoord c cfg.w cfg.xoff

/-- A logical y as a controller row: bound `H`, offset `YOFF`. -/
def translateY (cfg : Cfg) (c : Word) : Word := controllerCoord c cfg.h cfg.yoff

/-- `((r>>3)<<11) | ((g>>2)<<5) | (b>>3)` in 16 bits (R171). -/
def packColor (r g b : Byte) : Word :=
  ((r >>> 3).setWidth 16 <<< 11) ||| ((g >>> 2).setWidth 16 <<< 5) ||| (b >>> 3).setWidth 16

/-- `ceil_div(a, b)` (R11). -/
def ceilDiv (a b : Nat) : Nat := (a + b - 1) / b

/-- How many chunks `SER` of `n` colors makes (R178). -/
def chunkCount (n : Nat) : Nat := ceilDiv n Config.chunkColors

/-- How many colors chunk `k` of `n` colors holds (R175). -/
def chunkSize (n k : Nat) : Nat := min Config.chunkColors (n - k * Config.chunkColors)

/-- The colors of chunk `k` of a stream of which `n` are to be sent (R175). -/
def chunkColorsOf (colors : List Word) (n k : Nat) : List Word :=
  (colors.drop (k * Config.chunkColors)).take (chunkSize n k)

/-- Colors as bytes, high byte first (R65, R175). -/
def colorBytes (colors : List Word) : List Byte := colors.flatMap be16

/-- The bits of one byte on `MOSI`: bit 7 first, bit 0 last (R66). -/
def byteBits (b : Byte) : List Bool :=
  [b.getLsbD 7, b.getLsbD 6, b.getLsbD 5, b.getLsbD 4, b.getLsbD 3, b.getLsbD 2, b.getLsbD 1, b.getLsbD 0]

/-- The bits one transfer of a byte list shifts out, in order (R122). -/
def serialBits (bytes : List Byte) : List Bool := bytes.flatMap byteBits

end Sys2Proof.Machine
end

