-- ==== Sys2Proof/Machine/Panel.lean ====
section
/-! DEFINITION. The panel-side contract (R205 to R209): what the panel makes of each event TPC emits, as far as the
spec says, and where it stops saying (93_implementation_defined U1 to U9). Logs 13 to 21, 29 to 32 and 34. -/

namespace Sys2Proof.Machine

/-- The address of a controller coordinate pair in `P.mem`; one to one for columns below 65536. -/
def pixelAddr (col row : Nat) : Nat := row * 65536 + col

/-- Nothing of the panel is known until it is reset (U5, U6, R271, R272). -/
def Panel.lose (p : Panel) : Panel :=
  { Panel.unspecified with trust := if p.trust = .refused then .refused else .suspect, due := p.due }

/-- As `Panel.lose`, after a command byte that surely cleared `P.writing` (R207). -/
def Panel.loseIdle (p : Panel) : Panel := { p.lose with writing := some false }

/-- No claim about the panel from here on (U1, U9). -/
def Panel.refuse (p : Panel) : Panel := { Panel.unspecified with trust := .refused, due := p.due }

/-- `P.mem` has no defined value any more (U2, U3, U4, U8); the window stays (R206). -/
def Panel.dropMem (p : Panel) : Panel := { p with mem := [], ptr := none, half := none }

/-- A command byte discards a half-received pixel (R207); what becomes of that pixel is not in the source (U7). -/
def Panel.discardHalf (p : Panel) : Panel :=
  match p.half with
  | none => p
  | some _ =>
    match p.ptr with
    | some (col, row) => { p with half := none, mem := Memory.erase p.mem (pixelAddr col row) }
    | none => { p with half := none, mem := [] }

/-- Every setting `INIT` makes is in place, so the panel takes drawing traffic (R146, R271, log 17). -/
def Panel.isActive (cfg : Cfg) (p : Panel) : Bool :=
  decide (p.awake = some true) && decide (p.colmod = some cfg.valColmod) && decide (p.madctl = some cfg.valMadctl)
    && p.porch.isSome && p.gctrl.isSome && p.vcom.isSome && decide (p.inverted = some true)
    && decide (p.normalMode = some true) && decide (p.displayOn = some true)

/-- The window lies in order (U4) and inside the physical panel, columns `XOFF` to `XOFF + W - 1` and rows `YOFF` to
`YOFF + H - 1`, and the write pointer is still in it (U2). DESIGN CHOICE (log 18): whether the frame memory reaches
further on either side is not in the source (U8), so nothing is claimed there. -/
def Panel.windowOpen (cfg : Cfg) (cols rows : Word × Word) (row : Nat) : Bool :=
  decide (cols.1.toNat ≤ cols.2.toNat) && decide (rows.1.toNat ≤ rows.2.toNat) && decide (row ≤ rows.2.toNat)
    && decide (cfg.xoff.toNat ≤ cols.1.toNat) && decide (cols.2.toNat + 1 ≤ cfg.w.toNat + cfg.xoff.toNat)
    && decide (cfg.yoff.toNat ≤ rows.1.toNat) && decide (rows.2.toNat + 1 ≤ cfg.h.toNat + cfg.yoff.toNat)

/-- The write pointer after the pixel at `(col, row)` (R208). -/
def Panel.nextPtr (cols : Word × Word) (col row : Nat) : Nat × Nat :=
  if col = cols.2.toNat then (cols.1.toNat, row + 1) else (col + 1, row)

/-- One data byte while `P.writing` (R208): the first of a pair is latched, and the pixel at the pointer has no value
until the second stores the color (U7, log 20). -/
def Panel.pixelByte (cfg : Cfg) (b : Byte) (p : Panel) : Panel :=
  match p.cols, p.rows, p.ptr with
  | some cols, some rows, some (col, row) =>
    if Panel.windowOpen cfg cols rows row then
      match p.half with
      | none => { p with half := some b, mem := Memory.erase p.mem (pixelAddr col row) }
      | some hi =>
        { p with
          half := none
          mem := Memory.write p.mem (pixelAddr col row) (ofBytes hi b)
          ptr := some (Panel.nextPtr cols col row) }
    else p.dropMem
  | _, _, _ => p.dropMem

/-- A complete fixed payload takes effect (R192 to R196, R206). DESIGN CHOICE (log 32): a color-mode or orientation byte,
of whatever value, leaves the pixels and the window held as they are, since R192 and R193 do not say what becomes of
them. -/
def Panel.applyPayload (c : WireCommand) (payload : List Byte) (p : Panel) : Panel :=
  match c, payload with
  | .colmod, [v] => { p with colmod := some v }
  | .madctl, [v] => { p with madctl := some v }
  | .porctrl, [v0, v1, v2, v3, v4] => { p with porch := some [v0, v1, v2, v3, v4] }
  | .gctrl, [v] => { p with gctrl := some v }
  | .vcoms, [v] => { p with vcom := some v, due := Config.tVcom }
  | .caset, [a, b, c, d] => { p with cols := some (ofBytes a b, ofBytes c d) }
  | .raset, [a, b, c, d] => { p with rows := some (ofBytes a b, ofBytes c d) }
  | _, _ => p

/-- One data byte (`DC = 1`): a pixel byte, or a byte of the payload that the last command awaits. DESIGN CHOICE (log
29): it is that payload's whichever operation sent it, a `SER` too, of which R181 does not say what the panel does. -/
def Panel.dataByte (cfg : Cfg) (b : Byte) (p : Panel) : Panel :=
  if p.writing = some true then p.pixelByte cfg b
  else
    match p.pending with
    | none => p.lose
    | some (c, got) =>
      if c.payloadBytes = some (got.length + 1) then
        Panel.applyPayload c (got ++ [b]) { p with pending := none }
      else { p with pending := some (c, got ++ [b]) }

/-- Every part as after a reset of the panel: unspecified, but asleep (R191), and not writing (R207). -/
def Panel.afterReset (p : Panel) : Panel :=
  { Panel.unspecified with trust := p.trust, due := p.due, awake := some false, writing := some false }

/-- The write pointer at the window origin (R207), where the window is known. -/
def Panel.origin (p : Panel) : Option (Nat × Nat) :=
  match p.cols, p.rows with
  | some cols, some rows => some (cols.1.toNat, rows.1.toNat)
  | _, _ => none

/-- A fixed-length command's payload is awaited (R94). -/
def Panel.await (c : WireCommand) (p : Panel) : Panel := { p with pending := some (c, []) }

/-- The effect of a command byte, after `P.writing` has been cleared (R190 to R202, R207). -/
def Panel.commandEffect (cfg : Cfg) (c : WireCommand) (p : Panel) : Panel :=
  match c with
  | .swreset => { p.afterReset with due := Config.tSwreset }
  | .slpout => { p with awake := some true, due := Config.tSlpout }
  | .colmod => p.await .colmod
  | .madctl => p.await .madctl
  | .porctrl => p.await .porctrl
  | .gctrl => p.await .gctrl
  | .vcoms => { p.await .vcoms with due := Config.tVcom }
  | .invon => { p with inverted := some true }
  | .noron => { p with normalMode := some true }
  | .dispon => { p with displayOn := some true, due := Config.tDispon }
  | .caset => if p.isActive cfg then p.await .caset else p.loseIdle
  | .raset => if p.isActive cfg then p.await .raset else p.loseIdle
  | .ramwr => if p.isActive cfg then { p with writing := some true, ptr := p.origin } else p.lose

/-- A command byte ends a pixel stream (R207); one that cuts a fixed payload short is outside the contract (log 19). -/
def Panel.endStream (p : Panel) : Panel :=
  if p.pending.isSome then p.loseIdle else { p.discardHalf with writing := some false }

/-- One command byte (`DC = 0`): refused while a mandatory delay is owed (U1), unknown outside the thirteen (U6). -/
def Panel.commandByte (cfg : Cfg) (b : Byte) (p : Panel) : Panel :=
  if 0 < p.due then p.refuse
  else
    match decodeWire cfg b with
    | none => p.loseIdle
    | some c => p.endStream.commandEffect cfg c

/-- One byte of the flat trace (R205). After a refusal nothing is learnt. -/
def Panel.byte (cfg : Cfg) (dc : Bit) (p : Panel) (b : Byte) : Panel :=
  if p.trust = .refused then p
  else if dc = 0 then p.commandByte cfg b else p.dataByte cfg b

/-- The reset line goes low: the panel is reset and the contract holds again (R141, R272, log 16), unless a delay is
still owed. `RST` and `INIT` leave none owed, so that one is a hand-sent command's (R270, U1, log 15). -/
def Panel.resetLow (p : Panel) : Panel :=
  if p.trust = .refused then p
  else if 0 < p.due then p.refuse
  else { p.afterReset with trust := .trusted, due := Config.tReslow }

/-- The reset line goes high: only after the low time has passed (R270, U1). -/
def Panel.resetHigh (p : Panel) : Panel := if 0 < p.due then p.refuse else p

/-- What the panel makes of one event of `TRACE` (R205 to R209). After a failed transfer, an over-length one too, no
claim about the screen is made (R233, log 21). DESIGN CHOICE (log 31): no other event reaches it, so its power never
fails (R253). -/
def Panel.onEvent (cfg : Cfg) (p : Panel) : Event → Panel
  | .xfer dc bytes => bytes.foldl (Panel.byte cfg dc) p
  | .xferFail _ _ => p.refuse
  | .res level => if level = 0 then p.resetLow else p.resetHigh
  | .wait ms => { p with due := p.due - ms }
  | .bl _ => p

/-- The panel after a list of events. -/
def Panel.after (cfg : Cfg) (p : Panel) (es : List Event) : Panel := es.foldl (Panel.onEvent cfg) p

/-- The contract describes the panel and no mandatory delay is owed to it (R270): claims about it may be made. -/
def Panel.described (p : Panel) : Bool := decide (p.trust = .trusted) && decide (p.due = 0)

/-- The color the contract gives the controller address `(col, row)`; none where the spec gives none (R209). -/
def Panel.color (p : Panel) (col row : Nat) : Option Word :=
  if p.described then Memory.read p.mem (pixelAddr col row) else none

/-- The panel may be drawn on (R263, R271): described, active, and no fixed payload cut short. -/
def Panel.drawable (cfg : Cfg) (p : Panel) : Bool := p.described && p.isActive cfg && p.pending.isNone

end Sys2Proof.Machine
end

