-- ==== Sys2Proof/Machine/Ops.lean ====
section
/-! DEFINITION. The named operations: emitting an event (R13), the transfer primitive (R122), fault entry (R231), the
micro-operations (R96), acceptance (R92), the sequencer (R37, R96, R97) and teardown (R268). -/

namespace Sys2Proof.Machine

/-- Append one event to `TRACE`; the panel observes it (R13, R205). -/
def State.emit (s : State) (e : Event) : State :=
  { s with trace := s.trace ++ [e], panel := s.panel.onEvent s.cfg e }

/-- Give one response (R95). -/
def State.respond (s : State) (r : Response) : State := { s with responses := s.responses ++ [r] }

/-- `raise BusFault(k, dc)`, the fault entry (R231): `FAULT <- 1`, `FINFO` recorded, `SEQPC` left at the failing
step, `BUSY <- 0`, response `FAULTED`. There is no return from it (R235). -/
def State.raiseBusFault (s : State) (k : Nat) (dc : Bit) : State :=
  { s with
    fault := true
    finfo := { cause := 1, xfer := k, dc := dc, op := s.opr, step := s.seqpc }
    busy := false }.respond .faulted

/-- The bytes leave under one chip-select pulse (R21, R122): `CS <- 0`, shift out, `CS <- 1`. -/
def State.shiftOut (s : State) (dc : Bit) (bytes : List Byte) : State :=
  { { s with cs := 0 } with cs := 1 }.emit (.xfer dc bytes)

/-- A transfer that the bus reports as failed, or that is too long (R122, R124, R233): `CS` is left at a free value
(log 6), the event is `XFERFAIL`, the fault is raised. -/
def State.failTransfer (s : State) (k : Nat) (dc : Bit) (bytes : List Byte) : State :=
  ({ s with cs := Config.csAfterFault k }.emit (.xferFail dc bytes)).raiseBusFault k dc

/-- `Xfer(dc, bytes)` (R122): `DC` first, then the oracle is asked with `XCNT` before the increment. -/
def State.xfer (s : State) (dc : Bit) (bytes : List Byte) : Host.Outcome State Fault Refusal :=
  if bytes.isEmpty then .fault .emptyTransfer
  else if Config.maxXferBytes < bytes.length || s.busErr s.xcnt then
    .next ({ s with dc := dc, xcnt := s.xcnt + 1 }.failTransfer s.xcnt dc bytes)
  else .next ({ s with dc := dc, xcnt := s.xcnt + 1 }.shiftOut dc bytes)

/-- The micro-operations (R96). -/
inductive MicroOp where
  /-- One command transfer of one byte. -/
  | xc (b : Byte)
  /-- One data transfer. -/
  | xd (bytes : List Byte)
  /-- Write chunk `k` of `SRCC` into `SCR`. -/
  | stage (k : Nat)
  /-- Send `SCR[0 .. SLEN)`. -/
  | xs
  /-- Reset line low. -/
  | resl
  /-- Reset line high. -/
  | resh
  /-- Let at least `ms` milliseconds pass. -/
  | wait (ms : Nat)
  /-- The backlight event. -/
  | blset (duty : Nat)
  /-- `PSTATE <- s`. -/
  | pst (s : PState)
  deriving DecidableEq, Repr

/-- A micro-operation that completes does `SEQPC <- SEQPC + 1`; one that faulted leaves it (R37, R231). -/
def advance : Host.Outcome State Fault Refusal → Host.Outcome State Fault Refusal
  | .next s => .next (if s.fault then s else { s with seqpc := s.seqpc + 1 })
  | .fault r => .fault r
  | .refused r => .refused r

/-- `STAGE(k)` (R175): the chunk's colors as big-endian bytes into `SCR` from index 0, `SLEN <- 2 * cnt`. -/
def State.stage (s : State) (k : Nat) : State :=
  { s with
    scr := Scratch.writeFrom s.scr 0 (colorBytes (chunkColorsOf s.srcc s.cnt.toNat k))
    slen := 2 * chunkSize s.cnt.toNat k }

/-- `SLEN <- 0` after a transfer that went well; a failed one keeps it (R175, R180). -/
def clearSlen : Host.Outcome State Fault Refusal → Host.Outcome State Fault Refusal
  | .next s => .next (if s.fault then s else { s with slen := 0 })
  | .fault r => .fault r
  | .refused r => .refused r

/-- `XS` (R175): one data transfer of `SCR[0 .. SLEN)`. -/
def State.sendScratch (s : State) : Host.Outcome State Fault Refusal :=
  clearSlen (s.xfer 1 (Scratch.readFrom s.scr 0 s.slen))

/-- The effect of each micro-operation (R96, R142, R147, R152, R250), without the step of `SEQPC`. `XC` latches its
byte in `CMDB` first (R32, log 10). -/
def MicroOp.effect (s : State) : MicroOp → Host.Outcome State Fault Refusal
  | .xc b => { s with cmdb := b }.xfer 0 [b]
  | .xd bytes => s.xfer 1 bytes
  | .stage k => .next (s.stage k)
  | .xs => s.sendScratch
  | .resl => .next ({ s with res := 0 }.emit (.res 0))
  | .resh => .next ({ s with res := 1 }.emit (.res 1))
  | .wait ms => .next (s.emit (.wait ms))
  | .blset duty => .next ({ s with bld := some duty }.emit (.bl duty))
  | .pst p => .next { s with pstate := p }

/-- One step of the sequencer: the micro-operation, then `SEQPC` (R37). -/
def MicroOp.run (m : MicroOp) (s : State) : Host.Outcome State Fault Refusal := advance (m.effect s)

/-- Run micro-operations in list order until the end or the fault (R96, R231). -/
def runOps (ms : List MicroOp) (s : State) : Host.Outcome State Fault Refusal :=
  match ms with
  | [] => .next s
  | m :: rest =>
    match m.run s with
    | .next s' => if s'.fault then .next s' else runOps rest s'
    | .fault r => .fault r
    | .refused r => .refused r

/-- Completion (R97): `BUSY <- 0`, response `DONE`. -/
def State.complete (s : State) : State := { s with busy := false }.respond .done

/-- Acceptance of any operation but `PACK` (R92): `BUSY <- 1`, `OPR <- op`, `SEQPC <- 0`. -/
def State.accept (s : State) (op : BitVec 4) : State := { s with busy := true, opr := op, seqpc := 0 }

/-- The latch of format B (R93). -/
def State.latchByte (s : State) (b : Byte) : State := { s with cmdb := b }

/-- The latch of format L for `DAT`: `CNT`, and the stream by value (R62, R93). -/
def State.latchBytes (s : State) (bytes : List Byte) : State :=
  { s with cnt := BitVec.ofNat 32 bytes.length, srcb := bytes }

/-- The latch of format L for `SER`. -/
def State.latchColors (s : State) (colors : List Word) : State :=
  { s with cnt := BitVec.ofNat 32 colors.length, srcc := colors }

/-- The latches of format W, holding the four words clamped and offset (R93, R154). -/
def State.latchWindow (s : State) (xs xe ys ye : Word) : State := { s with x0 := xs, x1 := xe, y0 := ys, y1 := ye }

/-- The list of `CMD` (R120). -/
def seqCmd (s : State) : List MicroOp := [.xc s.cmdb]

/-- The list of `DAT` (R123, R126). -/
def seqDat (s : State) : List MicroOp :=
  if s.cnt = 0 then [] else [.xd (s.srcb.take s.cnt.toNat)]

/-- The list of `RST` (R141). -/
def seqRst (s : State) : List MicroOp :=
  [.resl, .wait Config.tReslow, .resh, .xc s.cfg.opcSwreset, .wait Config.tSwreset, .pst .reset]

/-- The list of `INIT` after its embedded reset, steps 6 to 26 (R146). -/
def seqConfigure (s : State) : List MicroOp :=
  [.xc s.cfg.opcSlpout, .wait Config.tSlpout, .pst .sleepOut,
   .xc s.cfg.opcColmod, .xd [s.cfg.valColmod],
   .xc s.cfg.opcMadctl, .xd [s.cfg.valMadctl],
   .xc s.cfg.opcPorctrl, .xd s.cfg.porch,
   .xc s.cfg.opcGctrl, .xd [s.cfg.valGctrl],
   .xc s.cfg.opcVcoms, .xd [s.cfg.valVcom],
   .wait Config.tVcom, .pst .configured,
   .xc s.cfg.opcInvon, .xc s.cfg.opcNoron, .xc s.cfg.opcDispon,
   .wait Config.tDispon, .blset s.cfg.blDefaultDuty, .pst .active]

/-- The list of `INIT` (R146). -/
def seqInit (s : State) : List MicroOp := seqRst s ++ seqConfigure s

/-- The list of `WIN` (R154, R159). -/
def seqWin (s : State) : List MicroOp :=
  [.xc s.cfg.opcCaset, .xd (be16 s.x0 ++ be16 s.x1), .xc s.cfg.opcRaset, .xd (be16 s.y0 ++ be16 s.y1)]

/-- The list of `RAMWR` (R161). -/
def seqRamwr (s : State) : List MicroOp := [.xc s.cfg.opcRamwr]

/-- The list of `SER`: `STAGE(k), XS` for each chunk (R175). -/
def seqSer (s : State) : List MicroOp :=
  (List.range (chunkCount s.cnt.toNat)).flatMap (fun k => [.stage k, .xs])

/-- `SEQROM` (R60, R63): the micro-operation list of the operation in progress. -/
def State.sequence (s : State) : List MicroOp :=
  match s.opr.toNat with
  | 1 => seqCmd s
  | 2 => seqDat s
  | 3 => seqRst s
  | 4 => seqInit s
  | 5 => seqWin s
  | 6 => seqRamwr s
  | 8 => seqSer s
  | _ => []

/-- How an accepted operation ends: as the fault left it, or completed (R97, R231). -/
def finish : Host.Outcome State Fault Refusal → Host.Outcome State Fault Refusal
  | .next s => .next (if s.fault then s else s.complete)
  | .fault r => .fault r
  | .refused r => .refused r

/-- Run the operation in progress from its first micro-operation to its end: operations block (R74, R92). -/
def State.drive (s : State) : Host.Outcome State Fault Refusal := finish (runOps s.sequence s)

/-- One step of a busy TPC: the micro-operation at `SEQPC`, or completion at the list's end (R96, R97). DESIGN CHOICE
(log 33): completion is a move of its own, after the last micro-operation, and for an empty list after acceptance. -/
def microStep (s : State) : Host.Outcome State Fault Refusal :=
  match s.sequence[s.seqpc]? with
  | some m => m.run s
  | none => .next s.complete

/-- A request is run where it is accepted; where it is not, it is not taken and nothing changes (R92, R235, log 9). -/
def whenReady (s : State) (run : Host.Outcome State Fault Refusal) : Host.Outcome State Fault Refusal :=
  if s.ready then run else .next s

/-- `CMD b`, for `CMD` and for each wire pseudo-operation of R103. -/
def State.sendCommand (s : State) (b : Byte) : Host.Outcome State Fault Refusal :=
  whenReady s ((s.accept 1).latchByte b).drive

/-- What `PACK` writes and answers (R171). -/
def State.packed (s : State) (r g b : Byte) : State :=
  { s with cr := r, cg := g, cb := b, pk := packColor r g b }.respond (.donePacked (packColor r g b))

/-- Teardown (R268): `LIFE <- TornDown`, no event. DESIGN CHOICE (log 22): no response either, since R95 speaks only of
requests. -/
def State.tearDown (s : State) : State := { s with life := .tornDown }

end Sys2Proof.Machine
end

