-- ==== Sys2Proof/Machine/ColorCodec.lean ====
section
/-! DEFINITION. The Color Codec's operations PACK and SER (42_color_codec). -/

namespace Sys2Proof.Machine

/-- `PACK r, g, b` (R171): combinational, so neither `BUSY` nor the sequencer is touched. -/
def execPack (r g b : Byte) (s : State) : Host.Outcome State Fault Refusal :=
  whenReady s (.next (s.packed r g b))

/-- `SER [c0, ...]` (R175). -/
def execSer (colors : List Word) (s : State) : Host.Outcome State Fault Refusal :=
  whenReady s ((s.accept 8).latchColors colors).drive

end Sys2Proof.Machine
end

