-- ==== Sys2Proof/Machine/PanelController.lean ====
section
/-! DEFINITION. The Panel Controller's operations RST, INIT, WIN, RAMWR (41_panel_controller). -/

namespace Sys2Proof.Machine

/-- `RST` (R141). -/
def execRst (s : State) : Host.Outcome State Fault Refusal := whenReady s (s.accept 3).drive

/-- `INIT` (R146). -/
def execInit (s : State) : Host.Outcome State Fault Refusal := whenReady s (s.accept 4).drive

/-- `WIN x0, x1, y0, y1` (R154): the operands are clamped and offset at acceptance. -/
def execWin (x0 x1 y0 y1 : Word) (s : State) : Host.Outcome State Fault Refusal :=
  whenReady s
    ((s.accept 5).latchWindow (translateX s.cfg x0) (translateX s.cfg x1) (translateY s.cfg y0)
      (translateY s.cfg y1)).drive

/-- `RAMWR` (R161). -/
def execRamwr (s : State) : Host.Outcome State Fault Refusal := whenReady s (s.accept 6).drive

end Sys2Proof.Machine
end

