-- ==== Sys2Proof/Machine/Transport.lean ====
section
/-! DEFINITION. The Transport's operations CMD and DAT (40_transport). -/

namespace Sys2Proof.Machine

/-- `CMD b` (R120). -/
def execCmd (b : Byte) (s : State) : Host.Outcome State Fault Refusal := s.sendCommand b

/-- `DAT [b0, ...]` (R123, R124, R126). -/
def execDat (bytes : List Byte) (s : State) : Host.Outcome State Fault Refusal :=
  whenReady s ((s.accept 2).latchBytes bytes).drive

end Sys2Proof.Machine
end

