-- ==== Sys2Proof/Machine/WireCommands.lean ====
section
/-! DEFINITION. The thirteen wire commands as the pseudo-operations of R103: each mnemonic means `CMD` with its opcode
parameter. What the panel makes of the byte is in Machine/Panel.lean (43_wire_commands). -/

namespace Sys2Proof.Machine

/-- `SWRESET` means `CMD OPC_SWRESET` (R103, R190). -/
def execSwreset (s : State) : Host.Outcome State Fault Refusal := s.sendCommand s.cfg.opcSwreset

/-- `SLPOUT` means `CMD OPC_SLPOUT` (R103, R191). -/
def execSlpout (s : State) : Host.Outcome State Fault Refusal := s.sendCommand s.cfg.opcSlpout

/-- `COLMOD` means `CMD OPC_COLMOD` (R103, R192). -/
def execColmod (s : State) : Host.Outcome State Fault Refusal := s.sendCommand s.cfg.opcColmod

/-- `MADCTL` means `CMD OPC_MADCTL` (R103, R193). -/
def execMadctl (s : State) : Host.Outcome State Fault Refusal := s.sendCommand s.cfg.opcMadctl

/-- `PORCTRL` means `CMD OPC_PORCTRL` (R103, R194). -/
def execPorctrl (s : State) : Host.Outcome State Fault Refusal := s.sendCommand s.cfg.opcPorctrl

/-- `GCTRL` means `CMD OPC_GCTRL` (R103, R195). -/
def execGctrl (s : State) : Host.Outcome State Fault Refusal := s.sendCommand s.cfg.opcGctrl

/-- `VCOMS` means `CMD OPC_VCOMS` (R103, R196). -/
def execVcoms (s : State) : Host.Outcome State Fault Refusal := s.sendCommand s.cfg.opcVcoms

/-- `INVON` means `CMD OPC_INVON` (R103, R197). -/
def execInvon (s : State) : Host.Outcome State Fault Refusal := s.sendCommand s.cfg.opcInvon

/-- `NORON` means `CMD OPC_NORON` (R103, R198). -/
def execNoron (s : State) : Host.Outcome State Fault Refusal := s.sendCommand s.cfg.opcNoron

/-- `DISPON` means `CMD OPC_DISPON` (R103, R199). -/
def execDispon (s : State) : Host.Outcome State Fault Refusal := s.sendCommand s.cfg.opcDispon

/-- `CASET` means `CMD OPC_CASET` (R103, R200). -/
def execCaset (s : State) : Host.Outcome State Fault Refusal := s.sendCommand s.cfg.opcCaset

/-- `RASET` means `CMD OPC_RASET` (R103, R201). -/
def execRaset (s : State) : Host.Outcome State Fault Refusal := s.sendCommand s.cfg.opcRaset

/-- `RAMWR.wire` means `CMD OPC_RAMWR` (R103, R202). -/
def execRamwrWire (s : State) : Host.Outcome State Fault Refusal := s.sendCommand s.cfg.opcRamwr

end Sys2Proof.Machine
end

