-- ==== Sys2Proof/Machine/Dispatch.lean ====
section
/-! DEFINITION. Which meaning each instruction has. -/

namespace Sys2Proof.Machine

def exec (i : Instr) (s : State) : Host.Outcome State Fault Refusal :=
  match i with
  | .cmd b => Sys2Proof.Machine.execCmd b s
  | .dat bytes => Sys2Proof.Machine.execDat bytes s
  | .rst => Sys2Proof.Machine.execRst s
  | .init => Sys2Proof.Machine.execInit s
  | .win x0 x1 y0 y1 => Sys2Proof.Machine.execWin x0 x1 y0 y1 s
  | .ramwr => Sys2Proof.Machine.execRamwr s
  | .pack r g b => Sys2Proof.Machine.execPack r g b s
  | .ser colors => Sys2Proof.Machine.execSer colors s
  | .swreset => Sys2Proof.Machine.execSwreset s
  | .slpout => Sys2Proof.Machine.execSlpout s
  | .colmod => Sys2Proof.Machine.execColmod s
  | .madctl => Sys2Proof.Machine.execMadctl s
  | .porctrl => Sys2Proof.Machine.execPorctrl s
  | .gctrl => Sys2Proof.Machine.execGctrl s
  | .vcoms => Sys2Proof.Machine.execVcoms s
  | .invon => Sys2Proof.Machine.execInvon s
  | .noron => Sys2Proof.Machine.execNoron s
  | .dispon => Sys2Proof.Machine.execDispon s
  | .caset => Sys2Proof.Machine.execCaset s
  | .raset => Sys2Proof.Machine.execRaset s
  | .ramwrWire => Sys2Proof.Machine.execRamwrWire s

end Sys2Proof.Machine
end

