-- ==== Sys2Proof/Machine/Fetch.lean ====
section
/-! DEFINITION. What an idle TPC finds at its request port (R91, R92, R99, R268), and how an instruction word is put
there, and what TPC does with it. -/

namespace Sys2Proof.Machine

/-- What the oldest item of the request port is. -/
inductive Fetched where
  /-- Nothing presented: TPC waits for a request (R260). -/
  | waits
  /-- The TEARDOWN strobe (R268). -/
  | strobe
  /-- A request for this instruction. -/
  | runs (i : Instr)
  /-- A reserved request code (R99). -/
  | reserved
  /-- Something the model gives no meaning (logs 11, 12). -/
  | stops (r : Refusal)
  deriving DecidableEq, Repr

/-- What a decoded item asks for. -/
def fetchedOf : Decoded → Fetched
  | .instr i => .runs i
  | .reject .reservedOp => .reserved
  | .reject .streamMismatch => .stops .streamMismatch
  | .reject .unknownWireOpcode => .stops .unknownWireOpcode

/-- Look at the port. -/
def fetch (s : State) : Fetched :=
  match s.port with
  | [] => .waits
  | .teardown :: _ => .strobe
  | .operation e :: _ => fetchedOf (decode s.cfg e)

/-- The port after its oldest item has been taken. -/
def State.consume (s : State) : State := { s with port := s.port.tail }

/-- Put an encoded instruction first at the port. -/
def State.present (s : State) (e : Encoded) : State := { s with port := .operation e :: s.port }

/-- One move of TPC, where `start` is what taking an instruction's request does. A halted TPC changes nothing (R235,
R268) and leaves its port as it is. DESIGN CHOICE (log 9): a request with a reserved code is left there too and gets no
answer, since R99 names no condition and R235 lets no state change. -/
def serve (start : Instr → State → Host.Outcome State Fault Refusal) (s : State) :
    Host.Outcome State Fault Refusal :=
  if s.halted then .next s
  else if s.busy then microStep s
  else
    match fetch s with
    | .waits => .next s
    | .strobe => .next s.consume.tearDown
    | .runs i => start i s.consume
    | .reserved => .next (s.consume.respond .refused)
    | .stops r => .refused r

end Sys2Proof.Machine
end

