-- ==== Sys2Proof/Machine/Step.lean ====
section
/-! DEFINITION. One step. An idle TPC takes one item from its port and runs the whole operation, since operations
block (R74, R92); a busy one runs one micro-operation (R96, log 1); a halted one changes nothing (R235, R268), and takes
nothing from its port (log 9). -/

namespace Sys2Proof.Machine

/-- One step of the machine. A reserved code at a halted TPC is left at the port, unanswered: DESIGN CHOICE (log 9). -/
def step (s : State) : Host.Outcome State Fault Refusal := serve exec s

/-- `s` with the instruction whose opcode-table word is `w` first at the request port (logs 8, 26). -/
def State.withFetchWord (s : State) (nbits w : Nat) : State :=
  match tableEncoded nbits w with
  | some e => s.present e
  | none => s

end Sys2Proof.Machine
end

