-- ==== Sys2Proof/Machine/Composite.lean ====
section
/-! DEFINITION. The composite sequences FLUSH and BLIT as host programs (R103, R220 to R226): lists of instructions the
host issues one after the other, not instructions. -/

namespace Sys2Proof.Machine

/-- The host issues each operation after the one before has ended; after a fault TPC accepts nothing more (R226,
R235). -/
def runProgram (is : List Instr) (s : State) : Host.Outcome State Fault Refusal :=
  match is with
  | [] => .next s
  | i :: rest =>
    match exec i s with
    | .next s' => runProgram rest s'
    | .fault r => .fault r
    | .refused r => .refused r

/-- `FLUSH fb` (R220). -/
def flushProgram (cfg : Cfg) (fb : List Word) : List Instr :=
  [.win 0 (cfg.w - 1) 0 (cfg.h - 1), .ramwr, .ser fb]

/-- One column of `BLIT` (R223). -/
def blitColumn (cfg : Cfg) (img : List Word) (x : Nat) : List Instr :=
  [.win (BitVec.ofNat 16 x) (BitVec.ofNat 16 x) 0 (cfg.h - 1), .ramwr,
   .ser ((img.drop (x * cfg.h.toNat)).take cfg.h.toNat)]

/-- `BLIT img` (R223): the columns in rising order of `x`. -/
def blitProgram (cfg : Cfg) (img : List Word) : List Instr :=
  (List.range cfg.w.toNat).flatMap (blitColumn cfg img)

end Sys2Proof.Machine
end

