-- ==== Sys2Proof/Machine/Tick.lean ====
section
/-! DEFINITION. The machine one micro-operation at a time (R96): what a host sees that samples STATUS while an operation
is in progress (R45). `step` runs the ticks of one operation together (log 1). -/

namespace Sys2Proof.Machine

/-- The state just after an instruction's request has been accepted (R92, R93). `PACK`, which never sets `BUSY`, has
then been answered (R171). -/
def accepted (i : Instr) (s : State) : State :=
  match i with
  | .cmd b => (s.accept 1).latchByte b
  | .dat bytes => (s.accept 2).latchBytes bytes
  | .rst => s.accept 3
  | .init => s.accept 4
  | .win x0 x1 y0 y1 =>
    (s.accept 5).latchWindow (translateX s.cfg x0) (translateX s.cfg x1) (translateY s.cfg y0) (translateY s.cfg y1)
  | .ramwr => s.accept 6
  | .pack r g b => s.packed r g b
  | .ser colors => (s.accept 8).latchColors colors
  | .swreset => (s.accept 1).latchByte s.cfg.opcSwreset
  | .slpout => (s.accept 1).latchByte s.cfg.opcSlpout
  | .colmod => (s.accept 1).latchByte s.cfg.opcColmod
  | .madctl => (s.accept 1).latchByte s.cfg.opcMadctl
  | .porctrl => (s.accept 1).latchByte s.cfg.opcPorctrl
  | .gctrl => (s.accept 1).latchByte s.cfg.opcGctrl
  | .vcoms => (s.accept 1).latchByte s.cfg.opcVcoms
  | .invon => (s.accept 1).latchByte s.cfg.opcInvon
  | .noron => (s.accept 1).latchByte s.cfg.opcNoron
  | .dispon => (s.accept 1).latchByte s.cfg.opcDispon
  | .caset => (s.accept 1).latchByte s.cfg.opcCaset
  | .raset => (s.accept 1).latchByte s.cfg.opcRaset
  | .ramwrWire => (s.accept 1).latchByte s.cfg.opcRamwr

/-- One tick: a ready TPC accepts the oldest request at its port; a busy one runs one micro-operation or completes. -/
def tick (s : State) : Host.Outcome State Fault Refusal := serve (fun i u => .next (accepted i u)) s

/-- `n` ticks. -/
def ticks (n : Nat) (s : State) : Host.Outcome State Fault Refusal :=
  match n with
  | 0 => .next s
  | k + 1 =>
    match tick s with
    | .next t => ticks k t
    | .fault r => .fault r
    | .refused r => .refused r

/-- `STATUS` as the host samples it after `n` ticks (R45). Reading it changes nothing. -/
def sampleStatus (n : Nat) (s : State) : Option (BitVec 8) :=
  match ticks n s with
  | .next t => some t.status
  | .fault _ => none
  | .refused _ => none

end Sys2Proof.Machine
end

