-- ==== Sys2Proof/Safety.lean ====
section
/-! DEFINITION. What counts as a safe run, in the terms claims use: the good-bus premise (R232) and the invariants of
the state that every step keeps. -/

namespace Sys2Proof.Machine

/-- The next `n` transfers do not fail: the "good bus" premise (R232), for as far as an operation needs it. -/
abbrev State.busGoodFor (s : State) (n : Nat) : Prop := ∀ j, j < n → s.busErr (s.xcnt + j) = false

/-- The scratch buffer is canonical, its indices are below `SCR_BYTES` (R61) and `SLEN` is at most
`SCR_BYTES` (R35). -/
abbrev State.ScratchInv (s : State) : Prop :=
  Scratch.wf s.scr ∧ (∀ c ∈ s.scr, c.1 < Config.scrBytes) ∧ s.slen ≤ Config.scrBytes

/-- The panel's frame memory is canonical. -/
abbrev State.FrameInv (s : State) : Prop := Memory.wf s.panel.mem

/-- `CS` is released between transfers (R21, R127), unless a transfer has failed (R233). -/
abbrev State.PinInv (s : State) : Prop := s.fault = false → s.cs = 1

/-- A faulted or torn-down TPC is not busy (R231, R268). -/
abbrev State.HaltInv (s : State) : Prop := s.halted = true → s.busy = false

/-- Every completed transfer has 1 to `MAX_XFER_BYTES` bytes (R13, R122), every started transfer is in `TRACE` and is
counted by `XCNT` (R36). -/
abbrev State.TraceInv (s : State) : Prop :=
  s.xcnt = s.trace.countP Event.isTransfer
    ∧ ∀ dc bytes, Event.xfer dc bytes ∈ s.trace → bytes ≠ [] ∧ bytes.length ≤ Config.maxXferBytes

/-- Without a fault no transfer has failed; with one, the failed transfer is the last event, the only failed one, and
`FINFO` records it (R27, R28, R231). -/
abbrev State.FaultInv (s : State) : Prop :=
  (s.fault = false → ∀ dc bytes, Event.xferFail dc bytes ∉ s.trace)
    ∧ (s.fault = true →
        ∃ before bytes, s.trace = before ++ [.xferFail s.dc bytes]
          ∧ (∀ dc bytes', Event.xferFail dc bytes' ∉ before)
          ∧ s.finfo.cause = 1 ∧ s.finfo.dc = s.dc ∧ s.finfo.xfer + 1 = s.xcnt)

/-- While TPC is busy, `SEQPC` is within the list in progress, its stream has the stated length, and where `XS` comes
next the scratch buffer holds the bytes of the chunk just staged, else `SLEN` is 0; at an operation boundary without a
fault `SLEN` is 0 (R35, R37, R74, R175, R176). -/
abbrev State.StagingInv (s : State) : Prop :=
  (s.busy = true →
      s.seqpc ≤ s.sequence.length
        ∧ (s.opr = 2 → s.srcb.length = s.cnt.toNat)
        ∧ (s.opr = 8 → s.srcc.length = s.cnt.toNat)
        ∧ (s.sequence[s.seqpc]? = some .xs → 0 < s.slen
            ∧ Scratch.readFrom s.scr 0 s.slen = colorBytes (chunkColorsOf s.srcc s.cnt.toNat (s.seqpc / 2)))
        ∧ (s.sequence[s.seqpc]? ≠ some .xs → s.slen = 0))
    ∧ (s.busy = false → s.fault = false → s.slen = 0)

/-- The 23 events of `INIT` on a good bus (R146; V20 of 95_test_vectors). -/
def initEvents (cfg : Cfg) : List Event :=
  [.res 0, .wait 20, .res 1, .xfer 0 [cfg.opcSwreset], .wait 150,
   .xfer 0 [cfg.opcSlpout], .wait 120,
   .xfer 0 [cfg.opcColmod], .xfer 1 [cfg.valColmod],
   .xfer 0 [cfg.opcMadctl], .xfer 1 [cfg.valMadctl],
   .xfer 0 [cfg.opcPorctrl],
   .xfer 1 [cfg.valPorch0, cfg.valPorch1, cfg.valPorch2, cfg.valPorch3, cfg.valPorch4],
   .xfer 0 [cfg.opcGctrl], .xfer 1 [cfg.valGctrl],
   .xfer 0 [cfg.opcVcoms], .xfer 1 [cfg.valVcom], .wait 10,
   .xfer 0 [cfg.opcInvon], .xfer 0 [cfg.opcNoron], .xfer 0 [cfg.opcDispon], .wait 150,
   .bl cfg.blDefaultDuty]

/-- The steps of `INIT` that transfer, each with the index of its event and the `PSTATE` at it; `none` before the first
`PST` (R146, R149). -/
def initTransfers : List (Nat × Nat × Option PState) :=
  [(3, 3, none), (6, 5, some .reset),
   (9, 7, some .sleepOut), (10, 8, some .sleepOut), (11, 9, some .sleepOut), (12, 10, some .sleepOut),
   (13, 11, some .sleepOut), (14, 12, some .sleepOut), (15, 13, some .sleepOut), (16, 14, some .sleepOut),
   (17, 15, some .sleepOut), (18, 16, some .sleepOut),
   (21, 18, some .configured), (22, 19, some .configured), (23, 20, some .configured)]

/-- The panel is what the contract makes of the trace, from the panel `d` that was there at construction (R205). -/
abbrev State.PanelInv (s : State) (d : PanelDraw) : Prop := s.panel = d.panel.after s.cfg s.trace

end Sys2Proof.Machine
end

