-- ==== Sys2Proof/Certificates/Slice0/Obligations.lean ====
section
/-! DEFINITION. The statements for the provers, each over every configuration, every oracle and every state that meets
its hypotheses. -/

open Sys2Proof Sys2Proof.Machine

/-! ### Encoding -/

/-- R90, R91, R93, R101: under a valid configuration decoding an encoded well-formed instruction gives it back, for all
eight operations and all thirteen wire commands, with every operand at every value. -/
def Obligations.DecodeOfEncodeGivesBack : Prop :=
  ∀ (cfg : Cfg) (i : Instr), cfg.valid = true → i.wellFormed = true → decode cfg (encode cfg i) = .instr i

/-- R93: bits of `arg` that a format does not name are ignored on decode, and what the decoder reads can be encoded. -/
def Obligations.DecoderReadsOnlyNamedBits : Prop :=
  ∀ (w w' : ReqWord) (src : Source), ReqWord.op w = ReqWord.op w' →
    (∀ i, decodeRequest w src = .instr i → i.wellFormed = true)
      ∧ (ReqWord.op w = 1 → w.extractLsb' 0 8 = w'.extractLsb' 0 8 → decodeRequest w src = decodeRequest w' src)
      ∧ (ReqWord.op w = 2 ∨ ReqWord.op w = 8 → w.extractLsb' 0 32 = w'.extractLsb' 0 32 →
          decodeRequest w src = decodeRequest w' src)
      ∧ (ReqWord.op w = 3 ∨ ReqWord.op w = 4 ∨ ReqWord.op w = 6 → decodeRequest w src = decodeRequest w' src)
      ∧ (ReqWord.op w = 7 → w.extractLsb' 0 24 = w'.extractLsb' 0 24 →
          decodeRequest w src = decodeRequest w' src)

/-- A few request words written out from R91, R93, R99 and the programs of 95_test_vectors; two default opcodes of R101,
and one byte outside the thirteen, in the byte form of the wire rows, which is the model's own (log 11, DEDUCED), as is
the rejection by name. -/
def Obligations.SampleWordsDecode : Prop :=
  decode Cfg.reference (.request 0x1000000000000002A .none) = .instr (.cmd 0x2A)
    ∧ decode Cfg.reference (.request 0x20000000000000002 (.bytes [0xF8, 0x00])) = .instr (.dat [0xF8, 0x00])
    ∧ decode Cfg.reference (.request 0x40000000000000000 .none) = .instr .init
    ∧ decode Cfg.reference (.request 0x50001000100000002 .none) = .instr (.win 1 1 0 2)
    ∧ decode Cfg.reference (.request 0x70000000000123456 .none) = .instr (.pack 0x12 0x34 0x56)
    ∧ decode Cfg.reference (.request 0x90000000000000000 .none) = .reject .reservedOp
    ∧ decode Cfg.reference (.wire 0x2C) = .instr .ramwrWire
    ∧ decode Cfg.reference (.wire 0xB2) = .instr .porctrl
    ∧ decode Cfg.reference (.wire 0x00) = .reject .unknownWireOpcode

/-! ### The step -/

/-- R92: where TPC is ready and the port's oldest item decodes to `i`, the step takes that item (log 8) and is `exec i`.
That ONE step runs the whole operation is the model's choice (log 1), since R96 counts one micro-operation a step. -/
def Obligations.StepRunsDecodedInstruction : Prop :=
  ∀ (s : State) (e : Encoded) (rest : List PortItem) (i : Instr),
    s.ready = true → s.port = .operation e :: rest → decode s.cfg e = .instr i →
      step s = exec i { s with port := rest }

/-- R99: a request with code 0x0 or 0x9 to 0xF is answered REFUSED and nothing else changes; that it is an item taken
off a list is the model's choice (log 8). -/
def Obligations.ReservedCodeIsRefused : Prop :=
  ∀ (s : State) (w : ReqWord) (src : Source) (rest : List PortItem),
    s.ready = true → s.port = .operation (.request w src) :: rest →
    (ReqWord.op w = 0 ∨ 9 ≤ (ReqWord.op w).toNat) →
      step s = .next { s with port := rest, responses := s.responses ++ [.refused] }

/-- R260, R268: an idle TPC waits for its first request; TEARDOWN sets `LIFE` and nothing else of TPC; while `BUSY = 1`
it is not accepted. That waiting is a step to the same state and that the strobe stays in the port list are the model's
choice (log 8), and so is that TEARDOWN gets no response (log 22). -/
def Obligations.IdleWaitsAndTeardownEnds : Prop :=
  ∀ s : State,
    (s.ready = true → s.port = [] → step s = .next s)
      ∧ (∀ rest, s.ready = true → s.port = .teardown :: rest →
          step s = .next { s with port := rest, life := .tornDown })
      ∧ (∀ t, s.busy = true → step s = .next t → t.life = s.life ∧ t.port = s.port)

/-- R235, and R268 for a torn-down TPC: a halted TPC accepts no request, emits no event and changes no state. That `exec`
then answers the same state and that a reserved code gets no answer are the model's choice (log 9), and so is that a
faulted TPC leaves a TEARDOWN at its port (log 22). -/
def Obligations.HaltedChangesNothing : Prop :=
  ∀ s : State, s.halted = true → step s = .next s ∧ ∀ i : Instr, exec i s = .next s

/-- R92, R96, R97: a busy TPC takes no request; its step runs the micro-operation at `SEQPC`, or completes at the end
of the list. That `exec` at a busy TPC answers the same state is the model's choice (log 9), and so is that completion
is a step of its own, with `BUSY` still 1 after the last micro-operation (log 33). -/
def Obligations.BusyRunsOneMicroOperation : Prop :=
  ∀ s : State, s.halted = false → s.busy = true →
    (∀ i : Instr, exec i s = .next s)
      ∧ (∀ m, s.sequence[s.seqpc]? = some m → step s = m.run s)
      ∧ (s.seqpc = s.sequence.length →
          step s = .next { s with busy := false, responses := s.responses ++ [.done] })

/-! ### Micro-operations -/

/-- R142, R147, R152, R250: `RESL` and `RESH` write `RES` whatever level it had and append their event; `PST` writes
`PSTATE`; `WAIT` and `BLSET` append their event; each steps `SEQPC`, and none can fault. -/
def Obligations.MicroOperationsWithoutTransfer : Prop :=
  ∀ (s : State) (p : PState) (n d : Nat), s.fault = false →
    MicroOp.resl.run s = .next
        { s with
          res := 0, seqpc := s.seqpc + 1, trace := s.trace ++ [.res 0], panel := s.panel.onEvent s.cfg (.res 0) }
      ∧ MicroOp.resh.run s = .next
        { s with
          res := 1, seqpc := s.seqpc + 1, trace := s.trace ++ [.res 1], panel := s.panel.onEvent s.cfg (.res 1) }
      ∧ (MicroOp.pst p).run s = .next { s with pstate := p, seqpc := s.seqpc + 1 }
      ∧ (MicroOp.wait n).run s = .next
        { s with
          seqpc := s.seqpc + 1, trace := s.trace ++ [.wait n], panel := s.panel.onEvent s.cfg (.wait n) }
      ∧ (MicroOp.blset d).run s = .next
        { s with
          bld := some d, seqpc := s.seqpc + 1, trace := s.trace ++ [.bl d]
          panel := s.panel.onEvent s.cfg (.bl d) }

/-- R122, R124, R231, R233: a transfer of at least one byte is completed, or, when it is too long or the oracle says
so, it is recorded as failed and the fault is raised; `CS` after it is a free value (log 6). -/
def Obligations.TransferCompletesOrFaults : Prop :=
  ∀ (s : State) (dc : Bit) (bytes : List Byte), bytes ≠ [] →
    (bytes.length ≤ 1024 → s.busErr s.xcnt = false →
        s.xfer dc bytes = .next
          { s with
            dc := dc, xcnt := s.xcnt + 1, cs := 1, trace := s.trace ++ [.xfer dc bytes]
            panel := s.panel.onEvent s.cfg (.xfer dc bytes) })
      ∧ (1024 < bytes.length ∨ s.busErr s.xcnt = true →
        s.xfer dc bytes = .next
          { s with
            dc := dc, xcnt := s.xcnt + 1, cs := Config.csAfterFault s.xcnt, fault := true, busy := false
            finfo := { cause := 1, xfer := s.xcnt, dc := dc, op := s.opr, step := s.seqpc }
            trace := s.trace ++ [.xferFail dc bytes]
            panel := s.panel.onEvent s.cfg (.xferFail dc bytes)
            responses := s.responses ++ [.faulted] })

/-! ### What each instruction does -/

/-- R120: `CMD b` on a good bus. -/
def Obligations.CmdSendsOneByte : Prop :=
  ∀ (b : Byte) (s : State), s.ready = true → s.busErr s.xcnt = false →
    exec (.cmd b) s = .next
      { s with
        cmdb := b, opr := 1, seqpc := 1, busy := false, dc := 0, cs := 1, xcnt := s.xcnt + 1
        trace := s.trace ++ [.xfer 0 [b]], panel := s.panel.onEvent s.cfg (.xfer 0 [b])
        responses := s.responses ++ [.done] }

/-- R103, R190 to R202: each of the thirteen wire mnemonics (SWRESET, SLPOUT, COLMOD, MADCTL, PORCTRL, GCTRL, VCOMS,
INVON, NORON, DISPON, CASET, RASET, RAMWR.wire) sends its opcode parameter as one command byte. -/
def Obligations.WireMnemonicsSendTheirOpcode : Prop :=
  ∀ (c : WireCommand) (s : State), s.ready = true → s.busErr s.xcnt = false →
    exec c.instr s = .next
      { s with
        cmdb := s.cfg.opcode c, opr := 1, seqpc := 1, busy := false, dc := 0, cs := 1, xcnt := s.xcnt + 1
        trace := s.trace ++ [.xfer 0 [s.cfg.opcode c]]
        panel := s.panel.onEvent s.cfg (.xfer 0 [s.cfg.opcode c])
        responses := s.responses ++ [.done] }

/-- R161: `RAMWR` on a good bus. -/
def Obligations.RamwrSendsMemoryWrite : Prop :=
  ∀ s : State, s.ready = true → s.busErr s.xcnt = false →
    exec .ramwr s = .next
      { s with
        cmdb := s.cfg.opcRamwr, opr := 6, seqpc := 1, busy := false, dc := 0, cs := 1, xcnt := s.xcnt + 1
        trace := s.trace ++ [.xfer 0 [s.cfg.opcRamwr]]
        panel := s.panel.onEvent s.cfg (.xfer 0 [s.cfg.opcRamwr])
        responses := s.responses ++ [.done] }

/-- R123: `DAT` of 1 to 1024 bytes on a good bus is one transfer. -/
def Obligations.DatSendsOneTransfer : Prop :=
  ∀ (bytes : List Byte) (s : State), bytes ≠ [] → bytes.length ≤ 1024 → s.ready = true →
    s.busErr s.xcnt = false →
    exec (.dat bytes) s = .next
      { s with
        cnt := BitVec.ofNat 32 bytes.length, srcb := bytes, opr := 2, seqpc := 1, busy := false
        dc := 1, cs := 1, xcnt := s.xcnt + 1
        trace := s.trace ++ [.xfer 1 bytes], panel := s.panel.onEvent s.cfg (.xfer 1 bytes)
        responses := s.responses ++ [.done] }

/-- R126: `DAT` of no byte makes no transfer and answers DONE. `CNT`, `OPR` and `SEQPC` are as acceptance wrote them (R92,
R93); that the empty stream is kept is the model's choice (log 28). -/
def Obligations.DatOfNothingSendsNothing : Prop :=
  ∀ s : State, s.ready = true →
    exec (.dat []) s = .next
      { s with
        cnt := 0, srcb := [], opr := 2, seqpc := 0, busy := false, responses := s.responses ++ [.done] }

/-- R124: `DAT` of more than 1024 bytes faults at its one transfer, whatever the bus; no bit is sent, and no claim about
the panel is made after it (R233, log 21). `CS` is a free value (log 6). -/
def Obligations.DatTooLongFaults : Prop :=
  ∀ (bytes : List Byte) (s : State), 1024 < bytes.length → bytes.length < 2 ^ 32 → s.ready = true →
    exec (.dat bytes) s = .next
      { s with
        cnt := BitVec.ofNat 32 bytes.length, srcb := bytes, opr := 2, seqpc := 0, busy := false
        dc := 1, xcnt := s.xcnt + 1, cs := Config.csAfterFault s.xcnt, fault := true
        finfo := { cause := 1, xfer := s.xcnt, dc := 1, op := 2, step := 0 }
        trace := s.trace ++ [.xferFail 1 bytes]
        panel := s.panel.refuse
        responses := s.responses ++ [.faulted] }

/-- R141: `RST` on a good bus. -/
def Obligations.RstRunsItsSixSteps : Prop :=
  ∀ s : State, s.ready = true → s.busErr s.xcnt = false →
    exec .rst s = .next
      { s with
        opr := 3, seqpc := 6, busy := false, res := 1, dc := 0, cs := 1, cmdb := s.cfg.opcSwreset
        xcnt := s.xcnt + 1, pstate := .reset
        trace := s.trace ++ [.res 0, .wait 20, .res 1, .xfer 0 [s.cfg.opcSwreset], .wait 150]
        panel := s.panel.after s.cfg [.res 0, .wait 20, .res 1, .xfer 0 [s.cfg.opcSwreset], .wait 150]
        responses := s.responses ++ [.done] }

/-- R141, R146, R149: a fault part-way through `RST` or `INIT` stops the list at the failing transfer, with `RES = 1`
and `PSTATE` as the last `PST` that ran wrote it (for `RST`, as it was); `INIT` leaves `BLD` too. `k` counts the
transfers of `INIT`. `CS` after the fault is a free value (log 6); that `CMDB` holds the byte whose transfer failed is
read from R32 by inference (log 10). -/
def Obligations.RstAndInitFaultPartWay : Prop :=
  (∀ s : State, s.ready = true → s.busErr s.xcnt = true →
    exec .rst s = .next
      { s with
        opr := 3, seqpc := 3, busy := false, res := 1, dc := 0, cs := Config.csAfterFault s.xcnt
        cmdb := s.cfg.opcSwreset, xcnt := s.xcnt + 1, fault := true
        finfo := { cause := 1, xfer := s.xcnt, dc := 0, op := 3, step := 3 }
        trace := s.trace ++ [.res 0, .wait 20, .res 1, .xferFail 0 [s.cfg.opcSwreset]]
        panel := s.panel.after s.cfg [.res 0, .wait 20, .res 1, .xferFail 0 [s.cfg.opcSwreset]]
        responses := s.responses ++ [.faulted] })
    ∧ ∀ (s : State) (k step event : Nat) (ps : Option PState),
      s.ready = true → initTransfers[k]? = some (step, event, ps) → s.busGoodFor k → s.busErr (s.xcnt + k) = true →
      ∃ t dc bytes, exec .init s = .next t
        ∧ (initEvents s.cfg)[event]? = some (.xfer dc bytes)
        ∧ t.trace = s.trace ++ (initEvents s.cfg).take event ++ [.xferFail dc bytes]
        ∧ t.fault = true ∧ t.busy = false ∧ t.res = 1 ∧ t.bld = s.bld ∧ t.pstate = ps.getD s.pstate
        ∧ t.dc = dc ∧ t.opr = 4 ∧ t.seqpc = step ∧ t.xcnt = s.xcnt + k + 1
        ∧ t.finfo = { cause := 1, xfer := s.xcnt + k, dc := dc, op := 4, step := step }
        ∧ t.responses = s.responses ++ [.faulted]

/-- R146: `INIT` on a good bus: 27 steps, 15 transfers, the 23 events of `initEvents`. -/
def Obligations.InitRunsItsSequence : Prop :=
  ∀ s : State, s.ready = true → s.busGoodFor 15 →
    exec .init s = .next
      { s with
        opr := 4, seqpc := 27, busy := false, res := 1, dc := 0, cs := 1, cmdb := s.cfg.opcDispon
        xcnt := s.xcnt + 15, pstate := .active, bld := some s.cfg.blDefaultDuty
        trace := s.trace ++ initEvents s.cfg, panel := s.panel.after s.cfg (initEvents s.cfg)
        responses := s.responses ++ [.done] }

/-- R154 to R156, R159: `WIN` on a good bus; each coordinate is `min(c, bound - 1) + offset` in 16 bits. -/
def Obligations.WinSendsClampedWindow : Prop :=
  ∀ (x0 x1 y0 y1 : Word) (s : State), s.ready = true → s.busGoodFor 4 →
    ∀ (xs xe ys ye : Word) (events : List Event),
      xs = BitVec.ofNat 16 (min x0.toNat (s.cfg.w - 1).toNat) + s.cfg.xoff →
      xe = BitVec.ofNat 16 (min x1.toNat (s.cfg.w - 1).toNat) + s.cfg.xoff →
      ys = BitVec.ofNat 16 (min y0.toNat (s.cfg.h - 1).toNat) + s.cfg.yoff →
      ye = BitVec.ofNat 16 (min y1.toNat (s.cfg.h - 1).toNat) + s.cfg.yoff →
      events =
        [.xfer 0 [s.cfg.opcCaset],
         .xfer 1 [xs.extractLsb' 8 8, xs.extractLsb' 0 8, xe.extractLsb' 8 8, xe.extractLsb' 0 8],
         .xfer 0 [s.cfg.opcRaset],
         .xfer 1 [ys.extractLsb' 8 8, ys.extractLsb' 0 8, ye.extractLsb' 8 8, ye.extractLsb' 0 8]] →
      exec (.win x0 x1 y0 y1) s = .next
        { s with
          opr := 5, seqpc := 4, busy := false, x0 := xs, x1 := xe, y0 := ys, y1 := ye
          dc := 1, cs := 1, cmdb := s.cfg.opcRaset, xcnt := s.xcnt + 4
          trace := s.trace ++ events, panel := s.panel.after s.cfg events
          responses := s.responses ++ [.done] }

/-- R171: `PACK` writes its latches and its result, answers DONE(PK), and touches nothing else. -/
def Obligations.PackWritesItsLatches : Prop :=
  ∀ (r g b : Byte) (s : State), s.ready = true →
    ∀ pk : Word,
      pk = (((r >>> 3).setWidth 16 <<< 11) ||| ((g >>> 2).setWidth 16 <<< 5) ||| (b >>> 3).setWidth 16) →
      exec (.pack r g b) s = .next
        { s with cr := r, cg := g, cb := b, pk := pk, responses := s.responses ++ [.donePacked pk] }

/-- R175, R177, R178: `SER` of `n` colors on a good bus sends `ceil_div(n, 512)` transfers, chunk `k` holding the
colors from `512 * k` on, at most 512, high byte first; none where `n = 0`. -/
def Obligations.SerSendsItsChunks : Prop :=
  ∀ (colors : List Word) (s : State), colors.length < 2 ^ 32 → s.ready = true →
    ∀ m : Nat, m = (colors.length + 511) / 512 → s.busGoodFor m →
    ∀ chunk : Nat → List Byte,
      (∀ k, chunk k = ((colors.drop (512 * k)).take 512).flatMap
          (fun c => [c.extractLsb' 8 8, c.extractLsb' 0 8])) →
      exec (.ser colors) s = .next
        { s with
          cnt := BitVec.ofNat 32 colors.length, srcc := colors, opr := 8, seqpc := 2 * m, busy := false
          dc := if m = 0 then s.dc else 1
          cs := if m = 0 then s.cs else 1
          slen := if m = 0 then s.slen else 0
          scr := (List.range m).foldl (fun mem k => Scratch.writeFrom mem 0 (chunk k)) s.scr
          xcnt := s.xcnt + m
          trace := s.trace ++ (List.range m).map (fun k => .xfer 1 (chunk k))
          panel := s.panel.after s.cfg ((List.range m).map (fun k => .xfer 1 (chunk k)))
          responses := s.responses ++ [.done] }

/-! ### Faults -/

/-- R180: when chunk `k` is the first whose transfer the bus fails, the chunks before it have been sent whole, chunk
`k` is recorded as failed, later ones are neither staged nor sent, and `SLEN` keeps the failed chunk's byte count. -/
def Obligations.SerFaultsAtFirstFailingChunk : Prop :=
  ∀ (colors : List Word) (s : State) (k : Nat), colors.length < 2 ^ 32 → s.ready = true →
    512 * k < colors.length → s.busGoodFor k → s.busErr (s.xcnt + k) = true →
    ∃ t, exec (.ser colors) s = .next t
      ∧ t.fault = true
      ∧ t.trace = s.trace
          ++ (List.range k).map (fun j => .xfer 1 (((colors.drop (512 * j)).take 512).flatMap be16))
          ++ [.xferFail 1 (((colors.drop (512 * k)).take 512).flatMap be16)]
      ∧ t.slen = 2 * min 512 (colors.length - 512 * k)
      ∧ t.scr = (List.range (k + 1)).foldl
          (fun mem j => Scratch.writeFrom mem 0 (((colors.drop (512 * j)).take 512).flatMap be16)) s.scr
      ∧ t.seqpc = 2 * k + 1 ∧ t.xcnt = s.xcnt + k + 1
      ∧ t.finfo = { cause := 1, xfer := s.xcnt + k, dc := 1, op := 8, step := 2 * k + 1 }

/-- R230, R231, R237: an operation that faults leaves TPC not busy, `SEQPC` at the transfer that failed, `FINFO`
recording it, the failed transfer as the last and only failed event it added, and one response FAULTED. -/
def Obligations.FaultIsRecordedPrecisely : Prop :=
  ∀ (i : Instr) (s t : State), s.fault = false → exec i s = .next t → t.fault = true →
    t.busy = false
      ∧ t.finfo.cause = 1 ∧ t.finfo.xfer + 1 = t.xcnt ∧ t.finfo.dc = t.dc ∧ t.finfo.op = t.opr
      ∧ t.finfo.step = t.seqpc
      ∧ (∃ es bytes, t.trace = s.trace ++ es ++ [.xferFail t.dc bytes]
          ∧ ∀ dc bytes', Event.xferFail dc bytes' ∉ es)
      ∧ t.responses = s.responses ++ [.faulted]
      ∧ ((∃ b, t.sequence[t.seqpc]? = some (.xc b)) ∨ (∃ l, t.sequence[t.seqpc]? = some (.xd l))
          ∨ t.sequence[t.seqpc]? = some .xs)

/-- R232, R237: on a good bus no operation faults, but for a `DAT` above the ceiling (R124). -/
def Obligations.GoodBusNeverFaults : Prop :=
  ∀ (i : Instr) (s t : State), (∀ k, s.xcnt ≤ k → s.busErr k = false) →
    (∀ bytes, i = .dat bytes → bytes.length ≤ 1024) → exec i s = .next t → t.fault = s.fault

/-- R95: an accepted request gets exactly one response: FAULTED where it faulted, DONE(PK) for `PACK`, else DONE. -/
def Obligations.OneResponsePerAcceptedRequest : Prop :=
  ∀ (i : Instr) (s t : State), s.ready = true → exec i s = .next t →
    t.responses = s.responses ++
      [if t.fault then .faulted
       else match i with
        | .pack _ _ _ => .donePacked t.pk
        | _ => .done]

/-- Every instruction answers a next state from every state: the model stops on none of them. At a TPC that is not ready
that next state is the same state, the model's choice (log 9). -/
def Obligations.EveryInstructionAnswers : Prop :=
  ∀ (i : Instr) (s : State), ∃ t, exec i s = .next t

/-! ### Arithmetic and data laws -/

/-- R173: `PACK`'s result is the concatenation of `r[7:3]`, `g[7:2]`, `b[7:3]`, red most significant, and the sum of the
three shifted fields. -/
def Obligations.PackedColorLayout : Prop :=
  ∀ r g b : Byte,
    packColor r g b = r.extractLsb' 3 5 ++ g.extractLsb' 2 6 ++ b.extractLsb' 3 5
      ∧ (packColor r g b).toNat = r.toNat / 8 * 2048 + g.toNat / 4 * 32 + b.toNat / 8

/-- R172: two triples pack to the same color exactly when they agree on `r[7:3]`, `g[7:2]` and `b[7:3]`. -/
def Obligations.PackTruncates : Prop :=
  ∀ r g b r' g' b' : Byte,
    packColor r g b = packColor r' g' b' ↔
      r.extractLsb' 3 5 = r'.extractLsb' 3 5 ∧ g.extractLsb' 2 6 = g'.extractLsb' 2 6
        ∧ b.extractLsb' 3 5 = b'.extractLsb' 3 5

/-- R158: an argument of `WIN` at or above its bound acts exactly as `bound - 1`; the four are clamped independently. -/
def Obligations.WindowClampingLaw : Prop :=
  ∀ (x0 x1 y0 y1 : Word) (s : State), s.cfg.valid = true →
    exec (.win x0 x1 y0 y1) s
      = exec (.win (if s.cfg.w.toNat ≤ x0.toNat then s.cfg.w - 1 else x0)
                   (if s.cfg.w.toNat ≤ x1.toNat then s.cfg.w - 1 else x1)
                   (if s.cfg.h.toNat ≤ y0.toNat then s.cfg.h - 1 else y0)
                   (if s.cfg.h.toNat ≤ y1.toNat then s.cfg.h - 1 else y1)) s

/-- R10, R72, R155, R156: under a valid configuration the clamp and the offset do not wrap, so no coordinate outside the
physical panel reaches the wire through `WIN`. -/
def Obligations.TranslationStaysOnPanel : Prop :=
  ∀ (cfg : Cfg) (c : Word), cfg.valid = true →
    (translateX cfg c).toNat = min c.toNat (cfg.w.toNat - 1) + cfg.xoff.toNat
      ∧ (translateY cfg c).toNat = min c.toNat (cfg.h.toNat - 1) + cfg.yoff.toNat
      ∧ (translateX cfg c).toNat ≤ cfg.w.toNat - 1 + cfg.xoff.toNat
      ∧ (translateY cfg c).toNat ≤ cfg.h.toNat - 1 + cfg.yoff.toNat

/-- R178: the first `m - 1` transfers of `SER` carry 512 colors each, the last 1 to 512, none is empty. -/
def Obligations.ChunkSizesOfSer : Prop :=
  ∀ n k : Nat, k < chunkCount n →
    (k + 1 < chunkCount n → chunkSize n k = 512)
      ∧ (k + 1 = chunkCount n → chunkSize n k = n - 512 * (chunkCount n - 1))
      ∧ 1 ≤ chunkSize n k ∧ 2 * chunkSize n k ≤ 1024

/-- R179: on a good bus the transfers of one `SER` concatenate to the big-endian bytes of its colors, and in the flat
trace `SER l1; SER l2` and `SER (l1 ++ l2)` are equal. -/
def Obligations.ChunkingLaw : Prop :=
  ∀ (l1 l2 : List Word) (s : State), (l1 ++ l2).length < 2 ^ 32 → s.ready = true →
    s.busGoodFor (chunkCount l1.length + chunkCount l2.length) →
    ∃ t u v, exec (.ser (l1 ++ l2)) s = .next t ∧ exec (.ser l1) s = .next u ∧ exec (.ser l2) u = .next v
      ∧ t.trace.flatMap Event.sentBytes = s.trace.flatMap Event.sentBytes ++ (l1 ++ l2).flatMap be16
      ∧ flatTrace t.trace = flatTrace v.trace

/-! ### Frames: what an instruction leaves unchanged -/

/-- R120, R161, R190 to R202: the frame of `CMD`, `RAMWR` and the thirteen wire mnemonics, faulted or not. -/
def Obligations.FrameOfCommands : Prop :=
  ∀ (i : Instr) (s t : State), ((∃ b, i = .cmd b) ∨ i = .ramwr ∨ ∃ c : WireCommand, i = c.instr) →
    exec i s = .next t →
    t.cfg = s.cfg ∧ t.res = s.res ∧ t.pstate = s.pstate ∧ t.bld = s.bld ∧ t.life = s.life
      ∧ t.x0 = s.x0 ∧ t.x1 = s.x1 ∧ t.y0 = s.y0 ∧ t.y1 = s.y1
      ∧ t.cr = s.cr ∧ t.cg = s.cg ∧ t.cb = s.cb ∧ t.pk = s.pk ∧ t.cnt = s.cnt ∧ t.slen = s.slen
      ∧ t.srcb = s.srcb ∧ t.srcc = s.srcc ∧ t.port = s.port ∧ t.busErrs = s.busErrs
      ∧ ∀ a, Scratch.read t.scr a = Scratch.read s.scr a

/-- R123: the frame of `DAT`; it does not use the scratch buffer. -/
def Obligations.FrameOfDat : Prop :=
  ∀ (bytes : List Byte) (s t : State), exec (.dat bytes) s = .next t →
    t.cfg = s.cfg ∧ t.res = s.res ∧ t.pstate = s.pstate ∧ t.bld = s.bld ∧ t.life = s.life
      ∧ t.x0 = s.x0 ∧ t.x1 = s.x1 ∧ t.y0 = s.y0 ∧ t.y1 = s.y1
      ∧ t.cr = s.cr ∧ t.cg = s.cg ∧ t.cb = s.cb ∧ t.pk = s.pk ∧ t.cmdb = s.cmdb ∧ t.slen = s.slen
      ∧ t.srcc = s.srcc ∧ t.port = s.port ∧ t.busErrs = s.busErrs
      ∧ ∀ a, Scratch.read t.scr a = Scratch.read s.scr a

/-- R141, R146, R262: the frame of `RST` and `INIT`; `RST` leaves the backlight too. -/
def Obligations.FrameOfRstAndInit : Prop :=
  ∀ (i : Instr) (s t : State), (i = .rst ∨ i = .init) → exec i s = .next t →
    t.cfg = s.cfg ∧ t.life = s.life ∧ (i = .rst → t.bld = s.bld)
      ∧ t.x0 = s.x0 ∧ t.x1 = s.x1 ∧ t.y0 = s.y0 ∧ t.y1 = s.y1
      ∧ t.cr = s.cr ∧ t.cg = s.cg ∧ t.cb = s.cb ∧ t.pk = s.pk ∧ t.cnt = s.cnt ∧ t.slen = s.slen
      ∧ t.srcb = s.srcb ∧ t.srcc = s.srcc ∧ t.port = s.port ∧ t.busErrs = s.busErrs
      ∧ ∀ a, Scratch.read t.scr a = Scratch.read s.scr a

/-- R154: the frame of `WIN`. -/
def Obligations.FrameOfWin : Prop :=
  ∀ (x0 x1 y0 y1 : Word) (s t : State), exec (.win x0 x1 y0 y1) s = .next t →
    t.cfg = s.cfg ∧ t.res = s.res ∧ t.pstate = s.pstate ∧ t.bld = s.bld ∧ t.life = s.life
      ∧ t.cr = s.cr ∧ t.cg = s.cg ∧ t.cb = s.cb ∧ t.pk = s.pk ∧ t.cnt = s.cnt ∧ t.slen = s.slen
      ∧ t.srcb = s.srcb ∧ t.srcc = s.srcc ∧ t.port = s.port ∧ t.busErrs = s.busErrs
      ∧ ∀ a, Scratch.read t.scr a = Scratch.read s.scr a

/-- R171: the frame of `PACK`: not even `BUSY`, `SEQPC`, `OPR`, `DC`, `CS`, `XCNT` or `TRACE`. -/
def Obligations.FrameOfPack : Prop :=
  ∀ (r g b : Byte) (s t : State), exec (.pack r g b) s = .next t →
    t.cfg = s.cfg ∧ t.cs = s.cs ∧ t.dc = s.dc ∧ t.res = s.res ∧ t.busy = s.busy ∧ t.fault = s.fault
      ∧ t.finfo = s.finfo ∧ t.pstate = s.pstate ∧ t.bld = s.bld ∧ t.life = s.life
      ∧ t.x0 = s.x0 ∧ t.x1 = s.x1 ∧ t.y0 = s.y0 ∧ t.y1 = s.y1 ∧ t.cmdb = s.cmdb ∧ t.cnt = s.cnt
      ∧ t.slen = s.slen ∧ t.xcnt = s.xcnt ∧ t.seqpc = s.seqpc ∧ t.opr = s.opr ∧ t.trace = s.trace
      ∧ t.srcb = s.srcb ∧ t.srcc = s.srcc ∧ t.port = s.port ∧ t.busErrs = s.busErrs ∧ t.panel = s.panel
      ∧ ∀ a, Scratch.read t.scr a = Scratch.read s.scr a

/-- R175, R176: the frame of `SER`: it stores to `SCR[0 .. 2*min(n, 512))` and to no other byte. -/
def Obligations.FrameOfSer : Prop :=
  ∀ (colors : List Word) (s t : State), colors.length < 2 ^ 32 → exec (.ser colors) s = .next t →
    t.cfg = s.cfg ∧ t.res = s.res ∧ t.pstate = s.pstate ∧ t.bld = s.bld ∧ t.life = s.life
      ∧ t.x0 = s.x0 ∧ t.x1 = s.x1 ∧ t.y0 = s.y0 ∧ t.y1 = s.y1
      ∧ t.cr = s.cr ∧ t.cg = s.cg ∧ t.cb = s.cb ∧ t.pk = s.pk ∧ t.cmdb = s.cmdb
      ∧ t.srcb = s.srcb ∧ t.port = s.port ∧ t.busErrs = s.busErrs
      ∧ ∀ a, 2 * min colors.length 512 ≤ a → Scratch.read t.scr a = Scratch.read s.scr a

/-! ### Whole-machine rules -/

/-- R46, R63, R73: no step writes the configuration or the oracle, and a step only appends to `TRACE` and to the
responses: nothing emitted is dropped, merged or reordered. -/
def Obligations.StepKeepsConfigurationAndHistory : Prop :=
  ∀ s t : State, step s = .next t →
    t.cfg = s.cfg ∧ t.busErrs = s.busErrs
      ∧ (∃ es, t.trace = s.trace ++ es) ∧ ∃ rs, t.responses = s.responses ++ rs

/-- R203: every command byte that `RST`, `INIT`, `WIN`, `RAMWR` and `SER` emit is one of the thirteen opcodes. -/
def Obligations.CommandSetIsClosed : Prop :=
  ∀ (i : Instr) (s t : State),
    (i = .rst ∨ i = .init ∨ (∃ x0 x1 y0 y1, i = .win x0 x1 y0 y1) ∨ i = .ramwr ∨ ∃ cs, i = .ser cs) →
    exec i s = .next t →
    ∃ es, t.trace = s.trace ++ es
      ∧ ∀ bytes, (Event.xfer 0 bytes ∈ es ∨ Event.xferFail 0 bytes ∈ es) →
          ∃ c ∈ WireCommand.all, bytes = [s.cfg.opcode c]

/-- R37, R45, R96, R97, R231 (logs 1, 33): running an accepted request one micro-operation a step, as `step` does while TPC is
busy, ends in the state that `exec` answers at once; every step of the machine is one or more of its ticks; and after
the tick that accepts a request, other than `PACK`'s, the host reads `BUSY = 1` in `STATUS` and the old `PSTATE`. -/
def Obligations.OperationIsItsMicroSteps : Prop :=
  (∀ (i : Instr) (s : State), s.ready = true → ∃ n, Sys2Proof.core.run n (accepted i s) = exec i s)
    ∧ (∀ s : State, ∃ n, 0 < n ∧ ticks n s = step s)
    ∧ ∀ (i : Instr) (s : State), s.ready = true → fetch s = .runs i → (∀ r g b, i ≠ .pack r g b) →
        sampleStatus 1 s = some (s.status ||| 1)

/-! ### Invariants every step keeps -/

/-- R35, R61: the scratch buffer's memory stays canonical, below index 1024, and `SLEN` at most 1024; the panel's frame
memory stays canonical too (log 13). -/
def Obligations.StepKeepsMemories : Prop :=
  ∀ s t : State, s.ScratchInv → s.FrameInv → step s = .next t → t.ScratchInv ∧ t.FrameInv

/-- R21, R127, R231, R268: `CS` is released between transfers unless one failed, and a halted TPC is not busy. -/
def Obligations.StepKeepsPinsAndHalt : Prop :=
  ∀ s t : State, s.PinInv → s.HaltInv → step s = .next t → t.PinInv ∧ t.HaltInv

/-- R13, R36, R122: `XCNT` counts the transfers in `TRACE`, and each completed one has 1 to 1024 bytes. -/
def Obligations.StepKeepsTransferCount : Prop :=
  ∀ s t : State, s.TraceInv → step s = .next t → t.TraceInv

/-- R27, R28, R231: `FAULT` is set exactly by a failed transfer, which is the last event, and `FINFO` records it. -/
def Obligations.StepKeepsFaultRecord : Prop :=
  ∀ s t : State, s.FaultInv → step s = .next t → t.FaultInv

/-- R35, R37, R74, R175: staging stays in step with the sequencer, and `SLEN = 0` at every operation boundary. -/
def Obligations.StepKeepsStaging : Prop :=
  ∀ s t : State, s.StagingInv → step s = .next t → t.StagingInv

/-- R205: the panel stays what the contract makes of the trace, from whatever panel was there at construction. -/
def Obligations.StepKeepsPanelOfTrace : Prop :=
  ∀ (d : PanelDraw) (s t : State), s.PanelInv d → step s = .next t → t.PanelInv d

/-- From a state that keeps the staging invariant no step stops with a fault of the model, which has one only, for a
transfer of no byte (log 7). -/
def Obligations.StagedStepNeverStops : Prop :=
  ∀ (s : State) (r : Fault), s.StagingInv → step s ≠ .fault r

/-- Construction from any configuration, draws and oracle meets every invariant. -/
def Obligations.ConstructionMeetsInvariants : Prop :=
  ∀ (cfg : Cfg) (d : Draws) (errs : List Nat) (s : State), s = State.constructed cfg d errs →
    s.ScratchInv ∧ s.FrameInv ∧ s.PinInv ∧ s.HaltInv ∧ s.TraceInv ∧ s.FaultInv ∧ s.StagingInv ∧ s.PanelInv d.panel

/-- R10, R44, R205, R260: construction from a valid configuration gives the table's values and the draws, whatever they
are, in TPC and in the panel, of which nothing is claimed; an invalid configuration is refused. -/
def Obligations.ConstructionValues : Prop :=
  ∀ (cfg : Cfg) (d : Draws) (errs : List Nat),
    (cfg.valid = true → ∃ s, State.construct cfg d errs = .next s
      ∧ s.cfg = cfg ∧ s.cs = 1 ∧ s.busy = false ∧ s.fault = false ∧ s.pstate = .unpowered ∧ s.slen = 0
      ∧ s.xcnt = 0 ∧ s.seqpc = 0 ∧ s.bld = none ∧ s.life = .constructed ∧ s.trace = []
      ∧ s.dc = d.dc ∧ s.res = d.res ∧ s.finfo = d.finfo ∧ s.x0 = d.x0 ∧ s.x1 = d.x1 ∧ s.y0 = d.y0 ∧ s.y1 = d.y1
      ∧ s.cr = d.cr ∧ s.cg = d.cg ∧ s.cb = d.cb ∧ s.pk = d.pk ∧ s.cmdb = d.cmdb ∧ s.cnt = d.cnt ∧ s.opr = d.opr
      ∧ (∀ a, a < 1024 → Scratch.read s.scr a = d.scr.getD a 0)
      ∧ s.panel.cols = some d.panel.cols ∧ s.panel.rows = some d.panel.rows ∧ s.panel.ptr = some d.panel.ptr
      ∧ s.panel.writing = some d.panel.writing ∧ s.panel.half = d.panel.half
      ∧ (d.panel.mem.Pairwise (fun c e => c.1 < e.1) → s.panel.mem = d.panel.mem)
      ∧ (∀ col row, s.panel.color col row = none)
      ∧ s.busErrs = errs ∧ s.ready = true)
      ∧ (cfg.valid = false → State.construct cfg d errs = .refused .invalidConfig)

/-- R45: the bits of `STATUS`. -/
def Obligations.StatusView : Prop :=
  ∀ s : State, s.status.getLsbD 0 = s.busy ∧ s.status.getLsbD 1 = s.fault
    ∧ s.status.extractLsb' 2 3 = s.pstate.code ∧ s.status.extractLsb' 5 3 = 0

/-! ### The panel-side contract -/

/-- R143, R148, R263, R272: on a good bus `INIT` leaves `PSTATE = Active` and a panel that may be drawn on, having kept
every mandatory delay, unless the panel was refused before or a hand-sent command's delay is still owed to it (R270).
What a panel may be drawn on for is logs 13 to 17. -/
def Obligations.InitMakesPanelDrawable : Prop :=
  ∀ s : State, s.ready = true → s.busGoodFor 15 → s.cfg.valid = true → s.panel.trust ≠ .refused →
    s.panel.due = 0 →
    ∃ t, exec .init s = .next t ∧ t.pstate = .active ∧ t.panel.drawable t.cfg = true

/-- R206: `WIN` on a drawable panel sets the panel's window to the translated coordinates and leaves it drawable. -/
def Obligations.WinSetsPanelWindow : Prop :=
  ∀ (x0 x1 y0 y1 : Word) (s : State), s.ready = true → s.busGoodFor 4 → s.cfg.valid = true →
    s.panel.drawable s.cfg = true →
    ∃ t, exec (.win x0 x1 y0 y1) s = .next t
      ∧ t.panel.cols = some (translateX s.cfg x0, translateX s.cfg x1)
      ∧ t.panel.rows = some (translateY s.cfg y0, translateY s.cfg y1)
      ∧ t.panel.writing = some false ∧ t.panel.half = none ∧ t.panel.drawable t.cfg = true
      ∧ (s.panel.half = none → t.panel.mem = s.panel.mem)

/-- R207: `RAMWR` on a drawable panel sets `P.writing`, discards a half-received pixel and puts the write pointer at the
window origin. -/
def Obligations.RamwrStartsAtWindowOrigin : Prop :=
  ∀ (s : State) (cols rows : Word × Word), s.ready = true → s.busErr s.xcnt = false → s.cfg.valid = true →
    s.panel.drawable s.cfg = true → s.panel.cols = some cols → s.panel.rows = some rows →
    ∃ t, exec .ramwr s = .next t
      ∧ t.panel.writing = some true ∧ t.panel.half = none
      ∧ t.panel.ptr = some (cols.1.toNat, rows.1.toNat)
      ∧ t.panel.cols = some cols ∧ t.panel.rows = some rows ∧ t.panel.drawable t.cfg = true

/-- R208: two data bytes while writing inside the window store `hi ++ lo` at the pointer, leave every other address, and
advance the pointer along the row, wrapping to the next row. -/
def Obligations.PixelPairStoresAndAdvances : Prop :=
  ∀ (cfg : Cfg) (p : Panel) (hi lo : Byte) (cols rows : Word × Word) (col row : Nat),
    p.trust ≠ .refused → p.writing = some true → p.half = none → p.cols = some cols → p.rows = some rows →
    p.ptr = some (col, row) → Panel.windowOpen cfg cols rows row = true →
    ∀ q : Panel, q = (p.byte cfg 1 hi).byte cfg 1 lo →
      Memory.read q.mem (pixelAddr col row) = some (hi ++ lo)
        ∧ (∀ a, a ≠ pixelAddr col row → Memory.read q.mem a = Memory.read p.mem a)
        ∧ q.ptr = some (if col = cols.2.toNat then (cols.1.toNat, row + 1) else (col + 1, row))
        ∧ q.half = none ∧ q.writing = some true

/-- R208, R220, R221: after `FLUSH fb` on a good bus and a drawable panel, logical pixel `(x, y)` holds `fb[y*W + x]` for
the whole panel. The drawable premise stands for R271's `PSTATE = Active` (log 17), and a pixel is read through
`Panel.color` (log 13). -/
def Obligations.FlushPaintsPanel : Prop :=
  ∀ (fb : List Word) (s : State), s.ready = true → s.cfg.valid = true →
    fb.length = s.cfg.w.toNat * s.cfg.h.toNat → s.busGoodFor (5 + chunkCount fb.length) →
    s.panel.drawable s.cfg = true →
    ∃ t, runProgram (flushProgram s.cfg fb) s = .next t ∧ t.fault = false
      ∧ ∀ x y, x < s.cfg.w.toNat → y < s.cfg.h.toNat →
          t.panel.color (x + s.cfg.xoff.toNat) (y + s.cfg.yoff.toNat) = fb[y * s.cfg.w.toNat + x]?

/-- R223, R225: after `BLIT img` on a good bus and a drawable panel, logical pixel `(x, y)` holds `img[x*H + y]`.
The drawable premise stands for R271's `PSTATE = Active` (log 17), and a pixel is read through `Panel.color` (log 13). -/
def Obligations.BlitPaintsPanel : Prop :=
  ∀ (img : List Word) (s : State), s.ready = true → s.cfg.valid = true →
    img.length = s.cfg.w.toNat * s.cfg.h.toNat →
    s.busGoodFor (s.cfg.w.toNat * (5 + chunkCount s.cfg.h.toNat)) → s.panel.drawable s.cfg = true →
    ∃ t, runProgram (blitProgram s.cfg img) s = .next t ∧ t.fault = false
      ∧ ∀ x y, x < s.cfg.w.toNat → y < s.cfg.h.toNat →
          t.panel.color (x + s.cfg.xoff.toNat) (y + s.cfg.yoff.toNat) = img[x * s.cfg.h.toNat + y]?

/-- R270 (U1): after a hand-sent SWRESET, SLPOUT, VCOMS or DISPON no claim about the panel may be made, whatever
instructions follow, RST and INIT among them; a next command byte, sent before any delay, refuses it for good. That the
panel stops being described is the model's bookkeeping (log 15). -/
def Obligations.HandSentDelayCommandEndsClaims : Prop :=
  ∀ (c : WireCommand) (s t : State), c ∈ [WireCommand.swreset, .slpout, .vcoms, .dispon] →
    s.cfg.valid = true → s.ready = true → s.busErr s.xcnt = false → exec (.cmd (s.cfg.opcode c)) s = .next t →
    t.panel.described = false
      ∧ (∀ i u, exec i t = .next u → u.panel.described = false)
      ∧ (∀ is u, runProgram is t = .next u → u.panel.described = false)
      ∧ ∀ b u, exec (.cmd b) t = .next u → u.panel.trust = .refused

/-- R233 (U9): after a failed transfer, one above the ceiling too, no claim about the panel may be made, for good (log
21). -/
def Obligations.FailedTransferEndsClaims : Prop :=
  ∀ (i : Instr) (s t : State), s.fault = false → exec i s = .next t → t.fault = true → t.panel.trust = .refused
end

