-- ==== Sys2Proof/Laws/Decode.lean ====
section
/-! SUPPORT. What the decoder and the encoder do, said once: the fields of a request word, the facts of a valid
configuration, and the wire command an opcode names. -/

namespace Sys2Proof

/-- The code field of a request word built from it (R91). -/
@[simp] theorem op_reqWord (op : BitVec 4) (arg : BitVec 64) : ReqWord.op (reqWord op arg) = op := by
  unfold ReqWord.op reqWord
  ext i hi
  have h : (op ++ arg).getLsbD (64 + i) = op.getLsbD i := by
    rw [BitVec.getLsbD_append, if_neg (by omega), Nat.add_sub_cancel_left]
  rw [BitVec.getElem_extractLsb', ← BitVec.getLsbD_eq_getElem]
  exact h

/-- Every field inside the argument of a request word is that field of the argument (R91). -/
theorem arg_reqWord (op : BitVec 4) (arg : BitVec 64) (lo n : Nat) (h : lo + n ≤ 64) :
    (reqWord op arg).extractLsb' lo n = arg.extractLsb' lo n := by
  unfold reqWord
  ext i hi
  simp only [BitVec.getElem_extractLsb', BitVec.getLsbD_append]
  rw [if_pos (by omega)]

/-- The count field of a word built from a count. -/
theorem count_reqWord (op : BitVec 4) (n : BitVec 32) : ReqWord.count (reqWord op (n.setWidth 64)) = n := by
  rw [ReqWord.count, arg_reqWord _ _ 0 32 (by omega)]
  ext i hi
  simp only [BitVec.getElem_extractLsb', BitVec.getLsbD_setWidth, Nat.zero_add]
  rw [decide_eq_true (by omega : i < 64)]
  simp [BitVec.getLsbD_eq_getElem hi]

/-- What a valid configuration gives (R10). -/
theorem Cfg.valid_facts {cfg : Cfg} (h : cfg.valid = true) :
    1 ≤ cfg.w.toNat ∧ cfg.w.toNat - 1 + cfg.xoff.toNat ≤ 65535 ∧ 1 ≤ cfg.h.toNat
      ∧ cfg.h.toNat - 1 + cfg.yoff.toNat ≤ 65535 ∧ (WireCommand.all.map cfg.opcode).Nodup := by
  simp only [Cfg.valid, Cfg.axisValid, Cfg.opcodesDistinct, Bool.and_eq_true, decide_eq_true_eq] at h
  exact ⟨h.1.1.1.1, h.1.1.1.2, h.1.1.2.1, h.1.1.2.2, h.1.2⟩

theorem WireCommand.mem_all (c : WireCommand) : c ∈ WireCommand.all := by cases c <;> decide

/-- In a list of commands with distinct opcodes, a command's opcode finds that command. -/
theorem find_opcode {cfg : Cfg} {l : List WireCommand} (hn : (l.map cfg.opcode).Nodup) {c : WireCommand}
    (hc : c ∈ l) : l.find? (fun d => cfg.opcode d == cfg.opcode c) = some c := by
  induction l with
  | nil => simp at hc
  | cons d t ih =>
    simp only [List.map_cons, List.nodup_cons] at hn
    by_cases hd : d = c
    · subst hd; simp
    · have hct : c ∈ t := by simpa [Ne.symm hd] using hc
      have hne : cfg.opcode d ≠ cfg.opcode c := fun he => hn.1 (he ▸ List.mem_map_of_mem hct)
      simp [hne, ih hn.2 hct]

/-- Under a valid configuration an opcode names its command (R10, R101). -/
theorem decodeWire_opcode {cfg : Cfg} (h : cfg.valid = true) (c : WireCommand) :
    decodeWire cfg (cfg.opcode c) = some c := find_opcode (Cfg.valid_facts h).2.2.2.2 c.mem_all

/-- A byte that decodes is the opcode of the command it decodes to. -/
theorem decodeWire_some {cfg : Cfg} {b : Byte} {c : WireCommand} (h : decodeWire cfg b = some c) :
    cfg.opcode c = b := by simpa using List.find?_some h

/-- A wire mnemonic is encoded as its opcode parameter (R101, R103). -/
theorem encode_wire (cfg : Cfg) (c : WireCommand) : encode cfg c.instr = .wire (cfg.opcode c) := by
  cases c <;> rfl

end Sys2Proof
end

