-- ==== Sys2Proof/Laws/Memory.lean ====
section
/-! SUPPORT. The laws of sparse memory: read after write, other addresses untouched, the canonical form kept. -/

namespace Sys2Proof.Machine

variable {α : Type}

@[simp] theorem Memory.read_nil (a : Nat) : Memory.read ([] : List (Nat × α)) a = none := rfl

theorem Memory.read_cons (b : Nat) (w : α) (t : List (Nat × α)) (a : Nat) :
    Memory.read ((b, w) :: t) a = if b = a then some w else Memory.read t a := rfl

@[simp] theorem Memory.read_write_same (m : List (Nat × α)) (a : Nat) (v : α) :
    Memory.read (Memory.write m a v) a = some v := by
  induction m with
  | nil => simp [Memory.write, Memory.read]
  | cons c t ih =>
    obtain ⟨b, w⟩ := c
    unfold Memory.write
    split
    · simp [Memory.read]
    · split
      · simp [Memory.read]
      · rename_i _ hne
        simp [Memory.read, ih, Ne.symm hne]

theorem Memory.read_write_other (m : List (Nat × α)) {a b : Nat} (v : α) (h : b ≠ a) :
    Memory.read (Memory.write m a v) b = Memory.read m b := by
  induction m with
  | nil => simp [Memory.write, Memory.read, Ne.symm h]
  | cons c t ih =>
    obtain ⟨k, w⟩ := c
    unfold Memory.write
    split
    · simp [Memory.read, Ne.symm h]
    · split
      · rename_i _ he
        subst he
        simp [Memory.read, Ne.symm h]
      · simp [Memory.read, ih]

/-- Every cell of a written memory was there before or is the one written. -/
theorem Memory.mem_write {m : List (Nat × α)} {a : Nat} {v : α} {c : Nat × α} (h : c ∈ Memory.write m a v) :
    c ∈ m ∨ c = (a, v) := by
  induction m with
  | nil => simpa [Memory.write] using h
  | cons d t ih =>
    obtain ⟨k, w⟩ := d
    unfold Memory.write at h
    split at h
    · simp only [List.mem_cons] at h ⊢; tauto
    · split at h
      · simp only [List.mem_cons] at h ⊢; tauto
      · simp only [List.mem_cons] at h ⊢
        rcases h with h | h
        · tauto
        · rcases ih h with h | h <;> tauto

theorem Memory.wf_write {m : List (Nat × α)} (h : Memory.wf m) (a : Nat) (v : α) :
    Memory.wf (Memory.write m a v) := by
  induction m with
  | nil => simp [Memory.write, Memory.wf]
  | cons d t ih =>
    obtain ⟨k, w⟩ := d
    have hk := List.pairwise_cons.mp h
    unfold Memory.write
    split
    · rename_i hlt
      refine List.pairwise_cons.mpr ⟨fun c hc => ?_, h⟩
      rcases List.mem_cons.mp hc with rfl | hc
      · exact hlt
      · exact Nat.lt_trans hlt (hk.1 c hc)
    · split
      · rename_i _ he
        subst he
        exact List.pairwise_cons.mpr ⟨hk.1, hk.2⟩
      · refine List.pairwise_cons.mpr ⟨fun c hc => ?_, ih hk.2⟩
        rcases Memory.mem_write hc with hc | rfl
        · exact hk.1 c hc
        · show k < a
          omega

/-- Every cell left after an erasure was there before. -/
theorem Memory.mem_erase {m : List (Nat × α)} {a : Nat} {c : Nat × α} (h : c ∈ Memory.erase m a) : c ∈ m := by
  induction m with
  | nil => simp [Memory.erase] at h
  | cons d t ih =>
    obtain ⟨k, w⟩ := d
    unfold Memory.erase at h
    split at h
    · exact List.mem_cons_of_mem _ (ih h)
    · rcases List.mem_cons.mp h with rfl | h
      · exact List.mem_cons_self
      · exact List.mem_cons_of_mem _ (ih h)

theorem Memory.wf_erase {m : List (Nat × α)} (h : Memory.wf m) (a : Nat) : Memory.wf (Memory.erase m a) := by
  induction m with
  | nil => simp [Memory.erase, Memory.wf]
  | cons d t ih =>
    obtain ⟨k, w⟩ := d
    have hk := List.pairwise_cons.mp h
    unfold Memory.erase
    split
    · exact ih hk.2
    · exact List.pairwise_cons.mpr ⟨fun c hc => hk.1 c (Memory.mem_erase hc), ih hk.2⟩

theorem Memory.read_erase_other (m : List (Nat × α)) {a b : Nat} (h : b ≠ a) :
    Memory.read (Memory.erase m a) b = Memory.read m b := by
  induction m with
  | nil => rfl
  | cons d t ih =>
    obtain ⟨k, w⟩ := d
    unfold Memory.erase
    split
    · rename_i he
      subst he
      simp [Memory.read, Ne.symm h, ih]
    · simp [Memory.read, ih]

@[simp] theorem Memory.read_erase_same (m : List (Nat × α)) (a : Nat) :
    Memory.read (Memory.erase m a) a = none := by
  induction m with
  | nil => rfl
  | cons d t ih =>
    obtain ⟨k, w⟩ := d
    unfold Memory.erase
    split
    · exact ih
    · rename_i hne
      rw [Memory.read_cons, if_neg (Ne.symm hne), ih]

/-- A list of cells put into canonical form is in canonical form. -/
theorem Memory.wf_ofCells (cells : List (Nat × α)) : Memory.wf (Memory.ofCells cells) := by
  have h : ∀ (l : List (Nat × α)) (m : List (Nat × α)), Memory.wf m →
      Memory.wf (l.foldl (fun m c => Memory.write m c.1 c.2) m) := by
    intro l
    induction l with
    | nil => exact fun m hm => hm
    | cons c l ih => exact fun m hm => ih _ (Memory.wf_write hm c.1 c.2)
  exact h cells [] List.Pairwise.nil

/-- A write above every listed address goes to the end. -/
theorem Memory.write_above {m : List (Nat × α)} {a : Nat} (h : ∀ c ∈ m, c.1 < a) (v : α) :
    Memory.write m a v = m ++ [(a, v)] := by
  induction m with
  | nil => rfl
  | cons d t ih =>
    obtain ⟨k, w⟩ := d
    have hk : k < a := h (k, w) List.mem_cons_self
    rw [Memory.write, if_neg (by omega), if_neg (by omega), ih (fun c hc => h c (List.mem_cons_of_mem _ hc))]
    rfl

/-- A list that is in canonical form already stays as it is. -/
theorem Memory.ofCells_of_wf {cells : List (Nat × α)} (h : Memory.wf cells) : Memory.ofCells cells = cells := by
  have go : ∀ (l m : List (Nat × α)), Memory.wf (m ++ l) →
      l.foldl (fun m c => Memory.write m c.1 c.2) m = m ++ l := by
    intro l
    induction l with
    | nil => exact fun m _ => (List.append_nil m).symm
    | cons c l ih =>
      intro m hm
      have hc : ∀ d ∈ m, d.1 < c.1 := fun d hd =>
        (List.pairwise_append.mp hm).2.2 d hd c List.mem_cons_self
      rw [List.foldl_cons, Memory.write_above hc, ih _ (by simpa using hm)]
      simp
  exact go cells [] h

/-! ### The scratch buffer -/

@[simp] theorem Scratch.read_write_same (m : List Host.Cell) (a : Nat) (v : Byte) :
    Scratch.read (Scratch.write m a v) a = v := by
  unfold Scratch.read Scratch.write
  split
  · rename_i hv
    rw [Memory.read_erase_same, hv]
    rfl
  · rw [Memory.read_write_same]
    rfl

theorem Scratch.read_write_other (m : List Host.Cell) {a b : Nat} (v : Byte) (h : b ≠ a) :
    Scratch.read (Scratch.write m a v) b = Scratch.read m b := by
  unfold Scratch.read Scratch.write
  split
  · rw [Memory.read_erase_other _ h]
  · rw [Memory.read_write_other _ _ h]

theorem Scratch.mem_write {m : List Host.Cell} {a : Nat} {v : Byte} {c : Host.Cell}
    (h : c ∈ Scratch.write m a v) : c ∈ m ∨ (c = (a, v) ∧ v ≠ 0) := by
  unfold Scratch.write at h
  split at h
  · exact .inl (Memory.mem_erase h)
  · rename_i hv
    exact (Memory.mem_write h).imp_right (fun hc => ⟨hc, hv⟩)

theorem Scratch.wf_write {m : List Host.Cell} (h : Scratch.wf m) (a : Nat) (v : Byte) :
    Scratch.wf (Scratch.write m a v) := by
  refine ⟨?_, fun c hc => ?_⟩
  · unfold Scratch.write
    split
    · exact Memory.wf_erase h.1 a
    · exact Memory.wf_write h.1 a v
  · rcases Scratch.mem_write hc with hc | ⟨rfl, hv⟩
    · exact h.2 c hc
    · exact hv

theorem Scratch.wf_nil : Scratch.wf [] := ⟨List.Pairwise.nil, fun _ hc => absurd hc List.not_mem_nil⟩

theorem Scratch.wf_writeFrom {m : List Host.Cell} (h : Scratch.wf m) (a : Nat) (vs : List Byte) :
    Scratch.wf (Scratch.writeFrom m a vs) := by
  induction vs generalizing m a with
  | nil => exact h
  | cons v vs ih => exact ih (Scratch.wf_write h a v) (a + 1)

/-- Every cell of a written buffer was there before or lies in the written range. -/
theorem Scratch.mem_writeFrom {m : List Host.Cell} {a : Nat} {vs : List Byte} {c : Host.Cell}
    (h : c ∈ Scratch.writeFrom m a vs) : c ∈ m ∨ (a ≤ c.1 ∧ c.1 < a + vs.length) := by
  induction vs generalizing m a with
  | nil => exact .inl h
  | cons v vs ih =>
    rcases ih h with h | h
    · rcases Scratch.mem_write h with h | ⟨rfl, -⟩
      · exact .inl h
      · exact .inr ⟨Nat.le_refl _, by simp⟩
    · exact .inr ⟨by omega, by simp only [List.length_cons]; omega⟩

/-- Bytes outside the written range read as before. -/
theorem Scratch.read_writeFrom_other (m : List Host.Cell) (a : Nat) (vs : List Byte) {b : Nat}
    (h : b < a ∨ a + vs.length ≤ b) : Scratch.read (Scratch.writeFrom m a vs) b = Scratch.read m b := by
  induction vs generalizing m a with
  | nil => rfl
  | cons v vs ih =>
    simp only [List.length_cons] at h
    unfold Scratch.writeFrom
    rw [ih _ _ (by omega), Scratch.read_write_other _ _ (by omega)]

/-- Reading back what was just written, in the same range. -/
theorem Scratch.readFrom_writeFrom (m : List Host.Cell) (a : Nat) (vs : List Byte) :
    Scratch.readFrom (Scratch.writeFrom m a vs) a vs.length = vs := by
  induction vs generalizing m a with
  | nil => rfl
  | cons v vs ih =>
    have hv : Scratch.read (Scratch.writeFrom (Scratch.write m a v) (a + 1) vs) a = v := by
      rw [Scratch.read_writeFrom_other _ _ _ (by omega), Scratch.read_write_same]
    simp [Scratch.readFrom, Scratch.writeFrom, hv, ih]

@[simp] theorem Scratch.length_readFrom (m : List Host.Cell) (a n : Nat) :
    (Scratch.readFrom m a n).length = n := by
  induction n generalizing a with
  | zero => rfl
  | succ n ih => simp [Scratch.readFrom, ih]

end Sys2Proof.Machine
end

