-- ==== Sys2Proof/Laws/State.lean ====
section
/-! SUPPORT. One lemma per field per state update, so that no later proof unfolds a record update. -/

namespace Sys2Proof.Machine

@[simp] theorem emit_cfg (s : State) (e : Event) : (s.emit e).cfg = s.cfg := rfl
@[simp] theorem emit_cs (s : State) (e : Event) : (s.emit e).cs = s.cs := rfl
@[simp] theorem emit_dc (s : State) (e : Event) : (s.emit e).dc = s.dc := rfl
@[simp] theorem emit_res (s : State) (e : Event) : (s.emit e).res = s.res := rfl
@[simp] theorem emit_busy (s : State) (e : Event) : (s.emit e).busy = s.busy := rfl
@[simp] theorem emit_fault (s : State) (e : Event) : (s.emit e).fault = s.fault := rfl
@[simp] theorem emit_finfo (s : State) (e : Event) : (s.emit e).finfo = s.finfo := rfl
@[simp] theorem emit_pstate (s : State) (e : Event) : (s.emit e).pstate = s.pstate := rfl
@[simp] theorem emit_x0 (s : State) (e : Event) : (s.emit e).x0 = s.x0 := rfl
@[simp] theorem emit_x1 (s : State) (e : Event) : (s.emit e).x1 = s.x1 := rfl
@[simp] theorem emit_y0 (s : State) (e : Event) : (s.emit e).y0 = s.y0 := rfl
@[simp] theorem emit_y1 (s : State) (e : Event) : (s.emit e).y1 = s.y1 := rfl
@[simp] theorem emit_cr (s : State) (e : Event) : (s.emit e).cr = s.cr := rfl
@[simp] theorem emit_cg (s : State) (e : Event) : (s.emit e).cg = s.cg := rfl
@[simp] theorem emit_cb (s : State) (e : Event) : (s.emit e).cb = s.cb := rfl
@[simp] theorem emit_pk (s : State) (e : Event) : (s.emit e).pk = s.pk := rfl
@[simp] theorem emit_cmdb (s : State) (e : Event) : (s.emit e).cmdb = s.cmdb := rfl
@[simp] theorem emit_cnt (s : State) (e : Event) : (s.emit e).cnt = s.cnt := rfl
@[simp] theorem emit_scr (s : State) (e : Event) : (s.emit e).scr = s.scr := rfl
@[simp] theorem emit_slen (s : State) (e : Event) : (s.emit e).slen = s.slen := rfl
@[simp] theorem emit_xcnt (s : State) (e : Event) : (s.emit e).xcnt = s.xcnt := rfl
@[simp] theorem emit_seqpc (s : State) (e : Event) : (s.emit e).seqpc = s.seqpc := rfl
@[simp] theorem emit_opr (s : State) (e : Event) : (s.emit e).opr = s.opr := rfl
@[simp] theorem emit_bld (s : State) (e : Event) : (s.emit e).bld = s.bld := rfl
@[simp] theorem emit_life (s : State) (e : Event) : (s.emit e).life = s.life := rfl
@[simp] theorem emit_trace (s : State) (e : Event) : (s.emit e).trace = s.trace ++ [e] := rfl
@[simp] theorem emit_srcb (s : State) (e : Event) : (s.emit e).srcb = s.srcb := rfl
@[simp] theorem emit_srcc (s : State) (e : Event) : (s.emit e).srcc = s.srcc := rfl
@[simp] theorem emit_port (s : State) (e : Event) : (s.emit e).port = s.port := rfl
@[simp] theorem emit_responses (s : State) (e : Event) : (s.emit e).responses = s.responses := rfl
@[simp] theorem emit_busErrs (s : State) (e : Event) : (s.emit e).busErrs = s.busErrs := rfl
@[simp] theorem emit_panel (s : State) (e : Event) : (s.emit e).panel = s.panel.onEvent s.cfg e := rfl

@[simp] theorem respond_cfg (s : State) (r : Response) : (s.respond r).cfg = s.cfg := rfl
@[simp] theorem respond_cs (s : State) (r : Response) : (s.respond r).cs = s.cs := rfl
@[simp] theorem respond_dc (s : State) (r : Response) : (s.respond r).dc = s.dc := rfl
@[simp] theorem respond_res (s : State) (r : Response) : (s.respond r).res = s.res := rfl
@[simp] theorem respond_busy (s : State) (r : Response) : (s.respond r).busy = s.busy := rfl
@[simp] theorem respond_fault (s : State) (r : Response) : (s.respond r).fault = s.fault := rfl
@[simp] theorem respond_finfo (s : State) (r : Response) : (s.respond r).finfo = s.finfo := rfl
@[simp] theorem respond_pstate (s : State) (r : Response) : (s.respond r).pstate = s.pstate := rfl
@[simp] theorem respond_x0 (s : State) (r : Response) : (s.respond r).x0 = s.x0 := rfl
@[simp] theorem respond_x1 (s : State) (r : Response) : (s.respond r).x1 = s.x1 := rfl
@[simp] theorem respond_y0 (s : State) (r : Response) : (s.respond r).y0 = s.y0 := rfl
@[simp] theorem respond_y1 (s : State) (r : Response) : (s.respond r).y1 = s.y1 := rfl
@[simp] theorem respond_cr (s : State) (r : Response) : (s.respond r).cr = s.cr := rfl
@[simp] theorem respond_cg (s : State) (r : Response) : (s.respond r).cg = s.cg := rfl
@[simp] theorem respond_cb (s : State) (r : Response) : (s.respond r).cb = s.cb := rfl
@[simp] theorem respond_pk (s : State) (r : Response) : (s.respond r).pk = s.pk := rfl
@[simp] theorem respond_cmdb (s : State) (r : Response) : (s.respond r).cmdb = s.cmdb := rfl
@[simp] theorem respond_cnt (s : State) (r : Response) : (s.respond r).cnt = s.cnt := rfl
@[simp] theorem respond_scr (s : State) (r : Response) : (s.respond r).scr = s.scr := rfl
@[simp] theorem respond_slen (s : State) (r : Response) : (s.respond r).slen = s.slen := rfl
@[simp] theorem respond_xcnt (s : State) (r : Response) : (s.respond r).xcnt = s.xcnt := rfl
@[simp] theorem respond_seqpc (s : State) (r : Response) : (s.respond r).seqpc = s.seqpc := rfl
@[simp] theorem respond_opr (s : State) (r : Response) : (s.respond r).opr = s.opr := rfl
@[simp] theorem respond_bld (s : State) (r : Response) : (s.respond r).bld = s.bld := rfl
@[simp] theorem respond_life (s : State) (r : Response) : (s.respond r).life = s.life := rfl
@[simp] theorem respond_trace (s : State) (r : Response) : (s.respond r).trace = s.trace := rfl
@[simp] theorem respond_srcb (s : State) (r : Response) : (s.respond r).srcb = s.srcb := rfl
@[simp] theorem respond_srcc (s : State) (r : Response) : (s.respond r).srcc = s.srcc := rfl
@[simp] theorem respond_port (s : State) (r : Response) : (s.respond r).port = s.port := rfl
@[simp] theorem respond_responses (s : State) (r : Response) : (s.respond r).responses = s.responses ++ [r] := rfl
@[simp] theorem respond_busErrs (s : State) (r : Response) : (s.respond r).busErrs = s.busErrs := rfl
@[simp] theorem respond_panel (s : State) (r : Response) : (s.respond r).panel = s.panel := rfl

@[simp] theorem raiseBusFault_cfg (s : State) (k : Nat) (d : Bit) : (s.raiseBusFault k d).cfg = s.cfg := rfl
@[simp] theorem raiseBusFault_cs (s : State) (k : Nat) (d : Bit) : (s.raiseBusFault k d).cs = s.cs := rfl
@[simp] theorem raiseBusFault_dc (s : State) (k : Nat) (d : Bit) : (s.raiseBusFault k d).dc = s.dc := rfl
@[simp] theorem raiseBusFault_res (s : State) (k : Nat) (d : Bit) : (s.raiseBusFault k d).res = s.res := rfl
@[simp] theorem raiseBusFault_busy (s : State) (k : Nat) (d : Bit) : (s.raiseBusFault k d).busy = false := rfl
@[simp] theorem raiseBusFault_fault (s : State) (k : Nat) (d : Bit) : (s.raiseBusFault k d).fault = true := rfl
@[simp] theorem raiseBusFault_finfo (s : State) (k : Nat) (d : Bit) : (s.raiseBusFault k d).finfo = { cause := 1, xfer := k, dc := d, op := s.opr, step := s.seqpc } := rfl
@[simp] theorem raiseBusFault_pstate (s : State) (k : Nat) (d : Bit) : (s.raiseBusFault k d).pstate = s.pstate := rfl
@[simp] theorem raiseBusFault_x0 (s : State) (k : Nat) (d : Bit) : (s.raiseBusFault k d).x0 = s.x0 := rfl
@[simp] theorem raiseBusFault_x1 (s : State) (k : Nat) (d : Bit) : (s.raiseBusFault k d).x1 = s.x1 := rfl
@[simp] theorem raiseBusFault_y0 (s : State) (k : Nat) (d : Bit) : (s.raiseBusFault k d).y0 = s.y0 := rfl
@[simp] theorem raiseBusFault_y1 (s : State) (k : Nat) (d : Bit) : (s.raiseBusFault k d).y1 = s.y1 := rfl
@[simp] theorem raiseBusFault_cr (s : State) (k : Nat) (d : Bit) : (s.raiseBusFault k d).cr = s.cr := rfl
@[simp] theorem raiseBusFault_cg (s : State) (k : Nat) (d : Bit) : (s.raiseBusFault k d).cg = s.cg := rfl
@[simp] theorem raiseBusFault_cb (s : State) (k : Nat) (d : Bit) : (s.raiseBusFault k d).cb = s.cb := rfl
@[simp] theorem raiseBusFault_pk (s : State) (k : Nat) (d : Bit) : (s.raiseBusFault k d).pk = s.pk := rfl
@[simp] theorem raiseBusFault_cmdb (s : State) (k : Nat) (d : Bit) : (s.raiseBusFault k d).cmdb = s.cmdb := rfl
@[simp] theorem raiseBusFault_cnt (s : State) (k : Nat) (d : Bit) : (s.raiseBusFault k d).cnt = s.cnt := rfl
@[simp] theorem raiseBusFault_scr (s : State) (k : Nat) (d : Bit) : (s.raiseBusFault k d).scr = s.scr := rfl
@[simp] theorem raiseBusFault_slen (s : State) (k : Nat) (d : Bit) : (s.raiseBusFault k d).slen = s.slen := rfl
@[simp] theorem raiseBusFault_xcnt (s : State) (k : Nat) (d : Bit) : (s.raiseBusFault k d).xcnt = s.xcnt := rfl
@[simp] theorem raiseBusFault_seqpc (s : State) (k : Nat) (d : Bit) : (s.raiseBusFault k d).seqpc = s.seqpc := rfl
@[simp] theorem raiseBusFault_opr (s : State) (k : Nat) (d : Bit) : (s.raiseBusFault k d).opr = s.opr := rfl
@[simp] theorem raiseBusFault_bld (s : State) (k : Nat) (d : Bit) : (s.raiseBusFault k d).bld = s.bld := rfl
@[simp] theorem raiseBusFault_life (s : State) (k : Nat) (d : Bit) : (s.raiseBusFault k d).life = s.life := rfl
@[simp] theorem raiseBusFault_trace (s : State) (k : Nat) (d : Bit) : (s.raiseBusFault k d).trace = s.trace := rfl
@[simp] theorem raiseBusFault_srcb (s : State) (k : Nat) (d : Bit) : (s.raiseBusFault k d).srcb = s.srcb := rfl
@[simp] theorem raiseBusFault_srcc (s : State) (k : Nat) (d : Bit) : (s.raiseBusFault k d).srcc = s.srcc := rfl
@[simp] theorem raiseBusFault_port (s : State) (k : Nat) (d : Bit) : (s.raiseBusFault k d).port = s.port := rfl
@[simp] theorem raiseBusFault_responses (s : State) (k : Nat) (d : Bit) : (s.raiseBusFault k d).responses = s.responses ++ [.faulted] := rfl
@[simp] theorem raiseBusFault_busErrs (s : State) (k : Nat) (d : Bit) : (s.raiseBusFault k d).busErrs = s.busErrs := rfl
@[simp] theorem raiseBusFault_panel (s : State) (k : Nat) (d : Bit) : (s.raiseBusFault k d).panel = s.panel := rfl

@[simp] theorem shiftOut_cfg (s : State) (d : Bit) (bytes : List Byte) : (s.shiftOut d bytes).cfg = s.cfg := rfl
@[simp] theorem shiftOut_cs (s : State) (d : Bit) (bytes : List Byte) : (s.shiftOut d bytes).cs = 1 := rfl
@[simp] theorem shiftOut_dc (s : State) (d : Bit) (bytes : List Byte) : (s.shiftOut d bytes).dc = s.dc := rfl
@[simp] theorem shiftOut_res (s : State) (d : Bit) (bytes : List Byte) : (s.shiftOut d bytes).res = s.res := rfl
@[simp] theorem shiftOut_busy (s : State) (d : Bit) (bytes : List Byte) : (s.shiftOut d bytes).busy = s.busy := rfl
@[simp] theorem shiftOut_fault (s : State) (d : Bit) (bytes : List Byte) : (s.shiftOut d bytes).fault = s.fault := rfl
@[simp] theorem shiftOut_finfo (s : State) (d : Bit) (bytes : List Byte) : (s.shiftOut d bytes).finfo = s.finfo := rfl
@[simp] theorem shiftOut_pstate (s : State) (d : Bit) (bytes : List Byte) : (s.shiftOut d bytes).pstate = s.pstate := rfl
@[simp] theorem shiftOut_x0 (s : State) (d : Bit) (bytes : List Byte) : (s.shiftOut d bytes).x0 = s.x0 := rfl
@[simp] theorem shiftOut_x1 (s : State) (d : Bit) (bytes : List Byte) : (s.shiftOut d bytes).x1 = s.x1 := rfl
@[simp] theorem shiftOut_y0 (s : State) (d : Bit) (bytes : List Byte) : (s.shiftOut d bytes).y0 = s.y0 := rfl
@[simp] theorem shiftOut_y1 (s : State) (d : Bit) (bytes : List Byte) : (s.shiftOut d bytes).y1 = s.y1 := rfl
@[simp] theorem shiftOut_cr (s : State) (d : Bit) (bytes : List Byte) : (s.shiftOut d bytes).cr = s.cr := rfl
@[simp] theorem shiftOut_cg (s : State) (d : Bit) (bytes : List Byte) : (s.shiftOut d bytes).cg = s.cg := rfl
@[simp] theorem shiftOut_cb (s : State) (d : Bit) (bytes : List Byte) : (s.shiftOut d bytes).cb = s.cb := rfl
@[simp] theorem shiftOut_pk (s : State) (d : Bit) (bytes : List Byte) : (s.shiftOut d bytes).pk = s.pk := rfl
@[simp] theorem shiftOut_cmdb (s : State) (d : Bit) (bytes : List Byte) : (s.shiftOut d bytes).cmdb = s.cmdb := rfl
@[simp] theorem shiftOut_cnt (s : State) (d : Bit) (bytes : List Byte) : (s.shiftOut d bytes).cnt = s.cnt := rfl
@[simp] theorem shiftOut_scr (s : State) (d : Bit) (bytes : List Byte) : (s.shiftOut d bytes).scr = s.scr := rfl
@[simp] theorem shiftOut_slen (s : State) (d : Bit) (bytes : List Byte) : (s.shiftOut d bytes).slen = s.slen := rfl
@[simp] theorem shiftOut_xcnt (s : State) (d : Bit) (bytes : List Byte) : (s.shiftOut d bytes).xcnt = s.xcnt := rfl
@[simp] theorem shiftOut_seqpc (s : State) (d : Bit) (bytes : List Byte) : (s.shiftOut d bytes).seqpc = s.seqpc := rfl
@[simp] theorem shiftOut_opr (s : State) (d : Bit) (bytes : List Byte) : (s.shiftOut d bytes).opr = s.opr := rfl
@[simp] theorem shiftOut_bld (s : State) (d : Bit) (bytes : List Byte) : (s.shiftOut d bytes).bld = s.bld := rfl
@[simp] theorem shiftOut_life (s : State) (d : Bit) (bytes : List Byte) : (s.shiftOut d bytes).life = s.life := rfl
@[simp] theorem shiftOut_trace (s : State) (d : Bit) (bytes : List Byte) : (s.shiftOut d bytes).trace = s.trace ++ [.xfer d bytes] := rfl
@[simp] theorem shiftOut_srcb (s : State) (d : Bit) (bytes : List Byte) : (s.shiftOut d bytes).srcb = s.srcb := rfl
@[simp] theorem shiftOut_srcc (s : State) (d : Bit) (bytes : List Byte) : (s.shiftOut d bytes).srcc = s.srcc := rfl
@[simp] theorem shiftOut_port (s : State) (d : Bit) (bytes : List Byte) : (s.shiftOut d bytes).port = s.port := rfl
@[simp] theorem shiftOut_responses (s : State) (d : Bit) (bytes : List Byte) : (s.shiftOut d bytes).responses = s.responses := rfl
@[simp] theorem shiftOut_busErrs (s : State) (d : Bit) (bytes : List Byte) : (s.shiftOut d bytes).busErrs = s.busErrs := rfl
@[simp] theorem shiftOut_panel (s : State) (d : Bit) (bytes : List Byte) : (s.shiftOut d bytes).panel = s.panel.onEvent s.cfg (.xfer d bytes) := rfl

@[simp] theorem failTransfer_cfg (s : State) (k : Nat) (d : Bit) (bytes : List Byte) : (s.failTransfer k d bytes).cfg = s.cfg := rfl
@[simp] theorem failTransfer_cs (s : State) (k : Nat) (d : Bit) (bytes : List Byte) : (s.failTransfer k d bytes).cs = Config.csAfterFault k := rfl
@[simp] theorem failTransfer_dc (s : State) (k : Nat) (d : Bit) (bytes : List Byte) : (s.failTransfer k d bytes).dc = s.dc := rfl
@[simp] theorem failTransfer_res (s : State) (k : Nat) (d : Bit) (bytes : List Byte) : (s.failTransfer k d bytes).res = s.res := rfl
@[simp] theorem failTransfer_busy (s : State) (k : Nat) (d : Bit) (bytes : List Byte) : (s.failTransfer k d bytes).busy = false := rfl
@[simp] theorem failTransfer_fault (s : State) (k : Nat) (d : Bit) (bytes : List Byte) : (s.failTransfer k d bytes).fault = true := rfl
@[simp] theorem failTransfer_finfo (s : State) (k : Nat) (d : Bit) (bytes : List Byte) : (s.failTransfer k d bytes).finfo = { cause := 1, xfer := k, dc := d, op := s.opr, step := s.seqpc } := rfl
@[simp] theorem failTransfer_pstate (s : State) (k : Nat) (d : Bit) (bytes : List Byte) : (s.failTransfer k d bytes).pstate = s.pstate := rfl
@[simp] theorem failTransfer_x0 (s : State) (k : Nat) (d : Bit) (bytes : List Byte) : (s.failTransfer k d bytes).x0 = s.x0 := rfl
@[simp] theorem failTransfer_x1 (s : State) (k : Nat) (d : Bit) (bytes : List Byte) : (s.failTransfer k d bytes).x1 = s.x1 := rfl
@[simp] theorem failTransfer_y0 (s : State) (k : Nat) (d : Bit) (bytes : List Byte) : (s.failTransfer k d bytes).y0 = s.y0 := rfl
@[simp] theorem failTransfer_y1 (s : State) (k : Nat) (d : Bit) (bytes : List Byte) : (s.failTransfer k d bytes).y1 = s.y1 := rfl
@[simp] theorem failTransfer_cr (s : State) (k : Nat) (d : Bit) (bytes : List Byte) : (s.failTransfer k d bytes).cr = s.cr := rfl
@[simp] theorem failTransfer_cg (s : State) (k : Nat) (d : Bit) (bytes : List Byte) : (s.failTransfer k d bytes).cg = s.cg := rfl
@[simp] theorem failTransfer_cb (s : State) (k : Nat) (d : Bit) (bytes : List Byte) : (s.failTransfer k d bytes).cb = s.cb := rfl
@[simp] theorem failTransfer_pk (s : State) (k : Nat) (d : Bit) (bytes : List Byte) : (s.failTransfer k d bytes).pk = s.pk := rfl
@[simp] theorem failTransfer_cmdb (s : State) (k : Nat) (d : Bit) (bytes : List Byte) : (s.failTransfer k d bytes).cmdb = s.cmdb := rfl
@[simp] theorem failTransfer_cnt (s : State) (k : Nat) (d : Bit) (bytes : List Byte) : (s.failTransfer k d bytes).cnt = s.cnt := rfl
@[simp] theorem failTransfer_scr (s : State) (k : Nat) (d : Bit) (bytes : List Byte) : (s.failTransfer k d bytes).scr = s.scr := rfl
@[simp] theorem failTransfer_slen (s : State) (k : Nat) (d : Bit) (bytes : List Byte) : (s.failTransfer k d bytes).slen = s.slen := rfl
@[simp] theorem failTransfer_xcnt (s : State) (k : Nat) (d : Bit) (bytes : List Byte) : (s.failTransfer k d bytes).xcnt = s.xcnt := rfl
@[simp] theorem failTransfer_seqpc (s : State) (k : Nat) (d : Bit) (bytes : List Byte) : (s.failTransfer k d bytes).seqpc = s.seqpc := rfl
@[simp] theorem failTransfer_opr (s : State) (k : Nat) (d : Bit) (bytes : List Byte) : (s.failTransfer k d bytes).opr = s.opr := rfl
@[simp] theorem failTransfer_bld (s : State) (k : Nat) (d : Bit) (bytes : List Byte) : (s.failTransfer k d bytes).bld = s.bld := rfl
@[simp] theorem failTransfer_life (s : State) (k : Nat) (d : Bit) (bytes : List Byte) : (s.failTransfer k d bytes).life = s.life := rfl
@[simp] theorem failTransfer_trace (s : State) (k : Nat) (d : Bit) (bytes : List Byte) : (s.failTransfer k d bytes).trace = s.trace ++ [.xferFail d bytes] := rfl
@[simp] theorem failTransfer_srcb (s : State) (k : Nat) (d : Bit) (bytes : List Byte) : (s.failTransfer k d bytes).srcb = s.srcb := rfl
@[simp] theorem failTransfer_srcc (s : State) (k : Nat) (d : Bit) (bytes : List Byte) : (s.failTransfer k d bytes).srcc = s.srcc := rfl
@[simp] theorem failTransfer_port (s : State) (k : Nat) (d : Bit) (bytes : List Byte) : (s.failTransfer k d bytes).port = s.port := rfl
@[simp] theorem failTransfer_responses (s : State) (k : Nat) (d : Bit) (bytes : List Byte) : (s.failTransfer k d bytes).responses = s.responses ++ [.faulted] := rfl
@[simp] theorem failTransfer_busErrs (s : State) (k : Nat) (d : Bit) (bytes : List Byte) : (s.failTransfer k d bytes).busErrs = s.busErrs := rfl
@[simp] theorem failTransfer_panel (s : State) (k : Nat) (d : Bit) (bytes : List Byte) : (s.failTransfer k d bytes).panel = s.panel.onEvent s.cfg (.xferFail d bytes) := rfl

@[simp] theorem stage_cfg (s : State) (k : Nat) : (s.stage k).cfg = s.cfg := rfl
@[simp] theorem stage_cs (s : State) (k : Nat) : (s.stage k).cs = s.cs := rfl
@[simp] theorem stage_dc (s : State) (k : Nat) : (s.stage k).dc = s.dc := rfl
@[simp] theorem stage_res (s : State) (k : Nat) : (s.stage k).res = s.res := rfl
@[simp] theorem stage_busy (s : State) (k : Nat) : (s.stage k).busy = s.busy := rfl
@[simp] theorem stage_fault (s : State) (k : Nat) : (s.stage k).fault = s.fault := rfl
@[simp] theorem stage_finfo (s : State) (k : Nat) : (s.stage k).finfo = s.finfo := rfl
@[simp] theorem stage_pstate (s : State) (k : Nat) : (s.stage k).pstate = s.pstate := rfl
@[simp] theorem stage_x0 (s : State) (k : Nat) : (s.stage k).x0 = s.x0 := rfl
@[simp] theorem stage_x1 (s : State) (k : Nat) : (s.stage k).x1 = s.x1 := rfl
@[simp] theorem stage_y0 (s : State) (k : Nat) : (s.stage k).y0 = s.y0 := rfl
@[simp] theorem stage_y1 (s : State) (k : Nat) : (s.stage k).y1 = s.y1 := rfl
@[simp] theorem stage_cr (s : State) (k : Nat) : (s.stage k).cr = s.cr := rfl
@[simp] theorem stage_cg (s : State) (k : Nat) : (s.stage k).cg = s.cg := rfl
@[simp] theorem stage_cb (s : State) (k : Nat) : (s.stage k).cb = s.cb := rfl
@[simp] theorem stage_pk (s : State) (k : Nat) : (s.stage k).pk = s.pk := rfl
@[simp] theorem stage_cmdb (s : State) (k : Nat) : (s.stage k).cmdb = s.cmdb := rfl
@[simp] theorem stage_cnt (s : State) (k : Nat) : (s.stage k).cnt = s.cnt := rfl
@[simp] theorem stage_scr (s : State) (k : Nat) : (s.stage k).scr = Scratch.writeFrom s.scr 0 (colorBytes (chunkColorsOf s.srcc s.cnt.toNat k)) := rfl
@[simp] theorem stage_slen (s : State) (k : Nat) : (s.stage k).slen = 2 * chunkSize s.cnt.toNat k := rfl
@[simp] theorem stage_xcnt (s : State) (k : Nat) : (s.stage k).xcnt = s.xcnt := rfl
@[simp] theorem stage_seqpc (s : State) (k : Nat) : (s.stage k).seqpc = s.seqpc := rfl
@[simp] theorem stage_opr (s : State) (k : Nat) : (s.stage k).opr = s.opr := rfl
@[simp] theorem stage_bld (s : State) (k : Nat) : (s.stage k).bld = s.bld := rfl
@[simp] theorem stage_life (s : State) (k : Nat) : (s.stage k).life = s.life := rfl
@[simp] theorem stage_trace (s : State) (k : Nat) : (s.stage k).trace = s.trace := rfl
@[simp] theorem stage_srcb (s : State) (k : Nat) : (s.stage k).srcb = s.srcb := rfl
@[simp] theorem stage_srcc (s : State) (k : Nat) : (s.stage k).srcc = s.srcc := rfl
@[simp] theorem stage_port (s : State) (k : Nat) : (s.stage k).port = s.port := rfl
@[simp] theorem stage_responses (s : State) (k : Nat) : (s.stage k).responses = s.responses := rfl
@[simp] theorem stage_busErrs (s : State) (k : Nat) : (s.stage k).busErrs = s.busErrs := rfl
@[simp] theorem stage_panel (s : State) (k : Nat) : (s.stage k).panel = s.panel := rfl

@[simp] theorem packed_cfg (s : State) (r g b : Byte) : (s.packed r g b).cfg = s.cfg := rfl
@[simp] theorem packed_cs (s : State) (r g b : Byte) : (s.packed r g b).cs = s.cs := rfl
@[simp] theorem packed_dc (s : State) (r g b : Byte) : (s.packed r g b).dc = s.dc := rfl
@[simp] theorem packed_res (s : State) (r g b : Byte) : (s.packed r g b).res = s.res := rfl
@[simp] theorem packed_busy (s : State) (r g b : Byte) : (s.packed r g b).busy = s.busy := rfl
@[simp] theorem packed_fault (s : State) (r g b : Byte) : (s.packed r g b).fault = s.fault := rfl
@[simp] theorem packed_finfo (s : State) (r g b : Byte) : (s.packed r g b).finfo = s.finfo := rfl
@[simp] theorem packed_pstate (s : State) (r g b : Byte) : (s.packed r g b).pstate = s.pstate := rfl
@[simp] theorem packed_x0 (s : State) (r g b : Byte) : (s.packed r g b).x0 = s.x0 := rfl
@[simp] theorem packed_x1 (s : State) (r g b : Byte) : (s.packed r g b).x1 = s.x1 := rfl
@[simp] theorem packed_y0 (s : State) (r g b : Byte) : (s.packed r g b).y0 = s.y0 := rfl
@[simp] theorem packed_y1 (s : State) (r g b : Byte) : (s.packed r g b).y1 = s.y1 := rfl
@[simp] theorem packed_cr (s : State) (r g b : Byte) : (s.packed r g b).cr = r := rfl
@[simp] theorem packed_cg (s : State) (r g b : Byte) : (s.packed r g b).cg = g := rfl
@[simp] theorem packed_cb (s : State) (r g b : Byte) : (s.packed r g b).cb = b := rfl
@[simp] theorem packed_pk (s : State) (r g b : Byte) : (s.packed r g b).pk = packColor r g b := rfl
@[simp] theorem packed_cmdb (s : State) (r g b : Byte) : (s.packed r g b).cmdb = s.cmdb := rfl
@[simp] theorem packed_cnt (s : State) (r g b : Byte) : (s.packed r g b).cnt = s.cnt := rfl
@[simp] theorem packed_scr (s : State) (r g b : Byte) : (s.packed r g b).scr = s.scr := rfl
@[simp] theorem packed_slen (s : State) (r g b : Byte) : (s.packed r g b).slen = s.slen := rfl
@[simp] theorem packed_xcnt (s : State) (r g b : Byte) : (s.packed r g b).xcnt = s.xcnt := rfl
@[simp] theorem packed_seqpc (s : State) (r g b : Byte) : (s.packed r g b).seqpc = s.seqpc := rfl
@[simp] theorem packed_opr (s : State) (r g b : Byte) : (s.packed r g b).opr = s.opr := rfl
@[simp] theorem packed_bld (s : State) (r g b : Byte) : (s.packed r g b).bld = s.bld := rfl
@[simp] theorem packed_life (s : State) (r g b : Byte) : (s.packed r g b).life = s.life := rfl
@[simp] theorem packed_trace (s : State) (r g b : Byte) : (s.packed r g b).trace = s.trace := rfl
@[simp] theorem packed_srcb (s : State) (r g b : Byte) : (s.packed r g b).srcb = s.srcb := rfl
@[simp] theorem packed_srcc (s : State) (r g b : Byte) : (s.packed r g b).srcc = s.srcc := rfl
@[simp] theorem packed_port (s : State) (r g b : Byte) : (s.packed r g b).port = s.port := rfl
@[simp] theorem packed_responses (s : State) (r g b : Byte) : (s.packed r g b).responses = s.responses ++ [.donePacked (packColor r g b)] := rfl
@[simp] theorem packed_busErrs (s : State) (r g b : Byte) : (s.packed r g b).busErrs = s.busErrs := rfl
@[simp] theorem packed_panel (s : State) (r g b : Byte) : (s.packed r g b).panel = s.panel := rfl

@[simp] theorem complete_cfg (s : State) : s.complete.cfg = s.cfg := rfl
@[simp] theorem complete_cs (s : State) : s.complete.cs = s.cs := rfl
@[simp] theorem complete_dc (s : State) : s.complete.dc = s.dc := rfl
@[simp] theorem complete_res (s : State) : s.complete.res = s.res := rfl
@[simp] theorem complete_busy (s : State) : s.complete.busy = false := rfl
@[simp] theorem complete_fault (s : State) : s.complete.fault = s.fault := rfl
@[simp] theorem complete_finfo (s : State) : s.complete.finfo = s.finfo := rfl
@[simp] theorem complete_pstate (s : State) : s.complete.pstate = s.pstate := rfl
@[simp] theorem complete_x0 (s : State) : s.complete.x0 = s.x0 := rfl
@[simp] theorem complete_x1 (s : State) : s.complete.x1 = s.x1 := rfl
@[simp] theorem complete_y0 (s : State) : s.complete.y0 = s.y0 := rfl
@[simp] theorem complete_y1 (s : State) : s.complete.y1 = s.y1 := rfl
@[simp] theorem complete_cr (s : State) : s.complete.cr = s.cr := rfl
@[simp] theorem complete_cg (s : State) : s.complete.cg = s.cg := rfl
@[simp] theorem complete_cb (s : State) : s.complete.cb = s.cb := rfl
@[simp] theorem complete_pk (s : State) : s.complete.pk = s.pk := rfl
@[simp] theorem complete_cmdb (s : State) : s.complete.cmdb = s.cmdb := rfl
@[simp] theorem complete_cnt (s : State) : s.complete.cnt = s.cnt := rfl
@[simp] theorem complete_scr (s : State) : s.complete.scr = s.scr := rfl
@[simp] theorem complete_slen (s : State) : s.complete.slen = s.slen := rfl
@[simp] theorem complete_xcnt (s : State) : s.complete.xcnt = s.xcnt := rfl
@[simp] theorem complete_seqpc (s : State) : s.complete.seqpc = s.seqpc := rfl
@[simp] theorem complete_opr (s : State) : s.complete.opr = s.opr := rfl
@[simp] theorem complete_bld (s : State) : s.complete.bld = s.bld := rfl
@[simp] theorem complete_life (s : State) : s.complete.life = s.life := rfl
@[simp] theorem complete_trace (s : State) : s.complete.trace = s.trace := rfl
@[simp] theorem complete_srcb (s : State) : s.complete.srcb = s.srcb := rfl
@[simp] theorem complete_srcc (s : State) : s.complete.srcc = s.srcc := rfl
@[simp] theorem complete_port (s : State) : s.complete.port = s.port := rfl
@[simp] theorem complete_responses (s : State) : s.complete.responses = s.responses ++ [.done] := rfl
@[simp] theorem complete_busErrs (s : State) : s.complete.busErrs = s.busErrs := rfl
@[simp] theorem complete_panel (s : State) : s.complete.panel = s.panel := rfl

@[simp] theorem accept_cfg (s : State) (op : BitVec 4) : (s.accept op).cfg = s.cfg := rfl
@[simp] theorem accept_cs (s : State) (op : BitVec 4) : (s.accept op).cs = s.cs := rfl
@[simp] theorem accept_dc (s : State) (op : BitVec 4) : (s.accept op).dc = s.dc := rfl
@[simp] theorem accept_res (s : State) (op : BitVec 4) : (s.accept op).res = s.res := rfl
@[simp] theorem accept_busy (s : State) (op : BitVec 4) : (s.accept op).busy = true := rfl
@[simp] theorem accept_fault (s : State) (op : BitVec 4) : (s.accept op).fault = s.fault := rfl
@[simp] theorem accept_finfo (s : State) (op : BitVec 4) : (s.accept op).finfo = s.finfo := rfl
@[simp] theorem accept_pstate (s : State) (op : BitVec 4) : (s.accept op).pstate = s.pstate := rfl
@[simp] theorem accept_x0 (s : State) (op : BitVec 4) : (s.accept op).x0 = s.x0 := rfl
@[simp] theorem accept_x1 (s : State) (op : BitVec 4) : (s.accept op).x1 = s.x1 := rfl
@[simp] theorem accept_y0 (s : State) (op : BitVec 4) : (s.accept op).y0 = s.y0 := rfl
@[simp] theorem accept_y1 (s : State) (op : BitVec 4) : (s.accept op).y1 = s.y1 := rfl
@[simp] theorem accept_cr (s : State) (op : BitVec 4) : (s.accept op).cr = s.cr := rfl
@[simp] theorem accept_cg (s : State) (op : BitVec 4) : (s.accept op).cg = s.cg := rfl
@[simp] theorem accept_cb (s : State) (op : BitVec 4) : (s.accept op).cb = s.cb := rfl
@[simp] theorem accept_pk (s : State) (op : BitVec 4) : (s.accept op).pk = s.pk := rfl
@[simp] theorem accept_cmdb (s : State) (op : BitVec 4) : (s.accept op).cmdb = s.cmdb := rfl
@[simp] theorem accept_cnt (s : State) (op : BitVec 4) : (s.accept op).cnt = s.cnt := rfl
@[simp] theorem accept_scr (s : State) (op : BitVec 4) : (s.accept op).scr = s.scr := rfl
@[simp] theorem accept_slen (s : State) (op : BitVec 4) : (s.accept op).slen = s.slen := rfl
@[simp] theorem accept_xcnt (s : State) (op : BitVec 4) : (s.accept op).xcnt = s.xcnt := rfl
@[simp] theorem accept_seqpc (s : State) (op : BitVec 4) : (s.accept op).seqpc = 0 := rfl
@[simp] theorem accept_opr (s : State) (op : BitVec 4) : (s.accept op).opr = op := rfl
@[simp] theorem accept_bld (s : State) (op : BitVec 4) : (s.accept op).bld = s.bld := rfl
@[simp] theorem accept_life (s : State) (op : BitVec 4) : (s.accept op).life = s.life := rfl
@[simp] theorem accept_trace (s : State) (op : BitVec 4) : (s.accept op).trace = s.trace := rfl
@[simp] theorem accept_srcb (s : State) (op : BitVec 4) : (s.accept op).srcb = s.srcb := rfl
@[simp] theorem accept_srcc (s : State) (op : BitVec 4) : (s.accept op).srcc = s.srcc := rfl
@[simp] theorem accept_port (s : State) (op : BitVec 4) : (s.accept op).port = s.port := rfl
@[simp] theorem accept_responses (s : State) (op : BitVec 4) : (s.accept op).responses = s.responses := rfl
@[simp] theorem accept_busErrs (s : State) (op : BitVec 4) : (s.accept op).busErrs = s.busErrs := rfl
@[simp] theorem accept_panel (s : State) (op : BitVec 4) : (s.accept op).panel = s.panel := rfl

@[simp] theorem latchByte_cfg (s : State) (b : Byte) : (s.latchByte b).cfg = s.cfg := rfl
@[simp] theorem latchByte_cs (s : State) (b : Byte) : (s.latchByte b).cs = s.cs := rfl
@[simp] theorem latchByte_dc (s : State) (b : Byte) : (s.latchByte b).dc = s.dc := rfl
@[simp] theorem latchByte_res (s : State) (b : Byte) : (s.latchByte b).res = s.res := rfl
@[simp] theorem latchByte_busy (s : State) (b : Byte) : (s.latchByte b).busy = s.busy := rfl
@[simp] theorem latchByte_fault (s : State) (b : Byte) : (s.latchByte b).fault = s.fault := rfl
@[simp] theorem latchByte_finfo (s : State) (b : Byte) : (s.latchByte b).finfo = s.finfo := rfl
@[simp] theorem latchByte_pstate (s : State) (b : Byte) : (s.latchByte b).pstate = s.pstate := rfl
@[simp] theorem latchByte_x0 (s : State) (b : Byte) : (s.latchByte b).x0 = s.x0 := rfl
@[simp] theorem latchByte_x1 (s : State) (b : Byte) : (s.latchByte b).x1 = s.x1 := rfl
@[simp] theorem latchByte_y0 (s : State) (b : Byte) : (s.latchByte b).y0 = s.y0 := rfl
@[simp] theorem latchByte_y1 (s : State) (b : Byte) : (s.latchByte b).y1 = s.y1 := rfl
@[simp] theorem latchByte_cr (s : State) (b : Byte) : (s.latchByte b).cr = s.cr := rfl
@[simp] theorem latchByte_cg (s : State) (b : Byte) : (s.latchByte b).cg = s.cg := rfl
@[simp] theorem latchByte_cb (s : State) (b : Byte) : (s.latchByte b).cb = s.cb := rfl
@[simp] theorem latchByte_pk (s : State) (b : Byte) : (s.latchByte b).pk = s.pk := rfl
@[simp] theorem latchByte_cmdb (s : State) (b : Byte) : (s.latchByte b).cmdb = b := rfl
@[simp] theorem latchByte_cnt (s : State) (b : Byte) : (s.latchByte b).cnt = s.cnt := rfl
@[simp] theorem latchByte_scr (s : State) (b : Byte) : (s.latchByte b).scr = s.scr := rfl
@[simp] theorem latchByte_slen (s : State) (b : Byte) : (s.latchByte b).slen = s.slen := rfl
@[simp] theorem latchByte_xcnt (s : State) (b : Byte) : (s.latchByte b).xcnt = s.xcnt := rfl
@[simp] theorem latchByte_seqpc (s : State) (b : Byte) : (s.latchByte b).seqpc = s.seqpc := rfl
@[simp] theorem latchByte_opr (s : State) (b : Byte) : (s.latchByte b).opr = s.opr := rfl
@[simp] theorem latchByte_bld (s : State) (b : Byte) : (s.latchByte b).bld = s.bld := rfl
@[simp] theorem latchByte_life (s : State) (b : Byte) : (s.latchByte b).life = s.life := rfl
@[simp] theorem latchByte_trace (s : State) (b : Byte) : (s.latchByte b).trace = s.trace := rfl
@[simp] theorem latchByte_srcb (s : State) (b : Byte) : (s.latchByte b).srcb = s.srcb := rfl
@[simp] theorem latchByte_srcc (s : State) (b : Byte) : (s.latchByte b).srcc = s.srcc := rfl
@[simp] theorem latchByte_port (s : State) (b : Byte) : (s.latchByte b).port = s.port := rfl
@[simp] theorem latchByte_responses (s : State) (b : Byte) : (s.latchByte b).responses = s.responses := rfl
@[simp] theorem latchByte_busErrs (s : State) (b : Byte) : (s.latchByte b).busErrs = s.busErrs := rfl
@[simp] theorem latchByte_panel (s : State) (b : Byte) : (s.latchByte b).panel = s.panel := rfl

@[simp] theorem latchBytes_cfg (s : State) (l : List Byte) : (s.latchBytes l).cfg = s.cfg := rfl
@[simp] theorem latchBytes_cs (s : State) (l : List Byte) : (s.latchBytes l).cs = s.cs := rfl
@[simp] theorem latchBytes_dc (s : State) (l : List Byte) : (s.latchBytes l).dc = s.dc := rfl
@[simp] theorem latchBytes_res (s : State) (l : List Byte) : (s.latchBytes l).res = s.res := rfl
@[simp] theorem latchBytes_busy (s : State) (l : List Byte) : (s.latchBytes l).busy = s.busy := rfl
@[simp] theorem latchBytes_fault (s : State) (l : List Byte) : (s.latchBytes l).fault = s.fault := rfl
@[simp] theorem latchBytes_finfo (s : State) (l : List Byte) : (s.latchBytes l).finfo = s.finfo := rfl
@[simp] theorem latchBytes_pstate (s : State) (l : List Byte) : (s.latchBytes l).pstate = s.pstate := rfl
@[simp] theorem latchBytes_x0 (s : State) (l : List Byte) : (s.latchBytes l).x0 = s.x0 := rfl
@[simp] theorem latchBytes_x1 (s : State) (l : List Byte) : (s.latchBytes l).x1 = s.x1 := rfl
@[simp] theorem latchBytes_y0 (s : State) (l : List Byte) : (s.latchBytes l).y0 = s.y0 := rfl
@[simp] theorem latchBytes_y1 (s : State) (l : List Byte) : (s.latchBytes l).y1 = s.y1 := rfl
@[simp] theorem latchBytes_cr (s : State) (l : List Byte) : (s.latchBytes l).cr = s.cr := rfl
@[simp] theorem latchBytes_cg (s : State) (l : List Byte) : (s.latchBytes l).cg = s.cg := rfl
@[simp] theorem latchBytes_cb (s : State) (l : List Byte) : (s.latchBytes l).cb = s.cb := rfl
@[simp] theorem latchBytes_pk (s : State) (l : List Byte) : (s.latchBytes l).pk = s.pk := rfl
@[simp] theorem latchBytes_cmdb (s : State) (l : List Byte) : (s.latchBytes l).cmdb = s.cmdb := rfl
@[simp] theorem latchBytes_cnt (s : State) (l : List Byte) : (s.latchBytes l).cnt = BitVec.ofNat 32 l.length := rfl
@[simp] theorem latchBytes_scr (s : State) (l : List Byte) : (s.latchBytes l).scr = s.scr := rfl
@[simp] theorem latchBytes_slen (s : State) (l : List Byte) : (s.latchBytes l).slen = s.slen := rfl
@[simp] theorem latchBytes_xcnt (s : State) (l : List Byte) : (s.latchBytes l).xcnt = s.xcnt := rfl
@[simp] theorem latchBytes_seqpc (s : State) (l : List Byte) : (s.latchBytes l).seqpc = s.seqpc := rfl
@[simp] theorem latchBytes_opr (s : State) (l : List Byte) : (s.latchBytes l).opr = s.opr := rfl
@[simp] theorem latchBytes_bld (s : State) (l : List Byte) : (s.latchBytes l).bld = s.bld := rfl
@[simp] theorem latchBytes_life (s : State) (l : List Byte) : (s.latchBytes l).life = s.life := rfl
@[simp] theorem latchBytes_trace (s : State) (l : List Byte) : (s.latchBytes l).trace = s.trace := rfl
@[simp] theorem latchBytes_srcb (s : State) (l : List Byte) : (s.latchBytes l).srcb = l := rfl
@[simp] theorem latchBytes_srcc (s : State) (l : List Byte) : (s.latchBytes l).srcc = s.srcc := rfl
@[simp] theorem latchBytes_port (s : State) (l : List Byte) : (s.latchBytes l).port = s.port := rfl
@[simp] theorem latchBytes_responses (s : State) (l : List Byte) : (s.latchBytes l).responses = s.responses := rfl
@[simp] theorem latchBytes_busErrs (s : State) (l : List Byte) : (s.latchBytes l).busErrs = s.busErrs := rfl
@[simp] theorem latchBytes_panel (s : State) (l : List Byte) : (s.latchBytes l).panel = s.panel := rfl

@[simp] theorem latchColors_cfg (s : State) (l : List Word) : (s.latchColors l).cfg = s.cfg := rfl
@[simp] theorem latchColors_cs (s : State) (l : List Word) : (s.latchColors l).cs = s.cs := rfl
@[simp] theorem latchColors_dc (s : State) (l : List Word) : (s.latchColors l).dc = s.dc := rfl
@[simp] theorem latchColors_res (s : State) (l : List Word) : (s.latchColors l).res = s.res := rfl
@[simp] theorem latchColors_busy (s : State) (l : List Word) : (s.latchColors l).busy = s.busy := rfl
@[simp] theorem latchColors_fault (s : State) (l : List Word) : (s.latchColors l).fault = s.fault := rfl
@[simp] theorem latchColors_finfo (s : State) (l : List Word) : (s.latchColors l).finfo = s.finfo := rfl
@[simp] theorem latchColors_pstate (s : State) (l : List Word) : (s.latchColors l).pstate = s.pstate := rfl
@[simp] theorem latchColors_x0 (s : State) (l : List Word) : (s.latchColors l).x0 = s.x0 := rfl
@[simp] theorem latchColors_x1 (s : State) (l : List Word) : (s.latchColors l).x1 = s.x1 := rfl
@[simp] theorem latchColors_y0 (s : State) (l : List Word) : (s.latchColors l).y0 = s.y0 := rfl
@[simp] theorem latchColors_y1 (s : State) (l : List Word) : (s.latchColors l).y1 = s.y1 := rfl
@[simp] theorem latchColors_cr (s : State) (l : List Word) : (s.latchColors l).cr = s.cr := rfl
@[simp] theorem latchColors_cg (s : State) (l : List Word) : (s.latchColors l).cg = s.cg := rfl
@[simp] theorem latchColors_cb (s : State) (l : List Word) : (s.latchColors l).cb = s.cb := rfl
@[simp] theorem latchColors_pk (s : State) (l : List Word) : (s.latchColors l).pk = s.pk := rfl
@[simp] theorem latchColors_cmdb (s : State) (l : List Word) : (s.latchColors l).cmdb = s.cmdb := rfl
@[simp] theorem latchColors_cnt (s : State) (l : List Word) : (s.latchColors l).cnt = BitVec.ofNat 32 l.length := rfl
@[simp] theorem latchColors_scr (s : State) (l : List Word) : (s.latchColors l).scr = s.scr := rfl
@[simp] theorem latchColors_slen (s : State) (l : List Word) : (s.latchColors l).slen = s.slen := rfl
@[simp] theorem latchColors_xcnt (s : State) (l : List Word) : (s.latchColors l).xcnt = s.xcnt := rfl
@[simp] theorem latchColors_seqpc (s : State) (l : List Word) : (s.latchColors l).seqpc = s.seqpc := rfl
@[simp] theorem latchColors_opr (s : State) (l : List Word) : (s.latchColors l).opr = s.opr := rfl
@[simp] theorem latchColors_bld (s : State) (l : List Word) : (s.latchColors l).bld = s.bld := rfl
@[simp] theorem latchColors_life (s : State) (l : List Word) : (s.latchColors l).life = s.life := rfl
@[simp] theorem latchColors_trace (s : State) (l : List Word) : (s.latchColors l).trace = s.trace := rfl
@[simp] theorem latchColors_srcb (s : State) (l : List Word) : (s.latchColors l).srcb = s.srcb := rfl
@[simp] theorem latchColors_srcc (s : State) (l : List Word) : (s.latchColors l).srcc = l := rfl
@[simp] theorem latchColors_port (s : State) (l : List Word) : (s.latchColors l).port = s.port := rfl
@[simp] theorem latchColors_responses (s : State) (l : List Word) : (s.latchColors l).responses = s.responses := rfl
@[simp] theorem latchColors_busErrs (s : State) (l : List Word) : (s.latchColors l).busErrs = s.busErrs := rfl
@[simp] theorem latchColors_panel (s : State) (l : List Word) : (s.latchColors l).panel = s.panel := rfl

@[simp] theorem latchWindow_cfg (s : State) (a b c d : Word) : (s.latchWindow a b c d).cfg = s.cfg := rfl
@[simp] theorem latchWindow_cs (s : State) (a b c d : Word) : (s.latchWindow a b c d).cs = s.cs := rfl
@[simp] theorem latchWindow_dc (s : State) (a b c d : Word) : (s.latchWindow a b c d).dc = s.dc := rfl
@[simp] theorem latchWindow_res (s : State) (a b c d : Word) : (s.latchWindow a b c d).res = s.res := rfl
@[simp] theorem latchWindow_busy (s : State) (a b c d : Word) : (s.latchWindow a b c d).busy = s.busy := rfl
@[simp] theorem latchWindow_fault (s : State) (a b c d : Word) : (s.latchWindow a b c d).fault = s.fault := rfl
@[simp] theorem latchWindow_finfo (s : State) (a b c d : Word) : (s.latchWindow a b c d).finfo = s.finfo := rfl
@[simp] theorem latchWindow_pstate (s : State) (a b c d : Word) : (s.latchWindow a b c d).pstate = s.pstate := rfl
@[simp] theorem latchWindow_x0 (s : State) (a b c d : Word) : (s.latchWindow a b c d).x0 = a := rfl
@[simp] theorem latchWindow_x1 (s : State) (a b c d : Word) : (s.latchWindow a b c d).x1 = b := rfl
@[simp] theorem latchWindow_y0 (s : State) (a b c d : Word) : (s.latchWindow a b c d).y0 = c := rfl
@[simp] theorem latchWindow_y1 (s : State) (a b c d : Word) : (s.latchWindow a b c d).y1 = d := rfl
@[simp] theorem latchWindow_cr (s : State) (a b c d : Word) : (s.latchWindow a b c d).cr = s.cr := rfl
@[simp] theorem latchWindow_cg (s : State) (a b c d : Word) : (s.latchWindow a b c d).cg = s.cg := rfl
@[simp] theorem latchWindow_cb (s : State) (a b c d : Word) : (s.latchWindow a b c d).cb = s.cb := rfl
@[simp] theorem latchWindow_pk (s : State) (a b c d : Word) : (s.latchWindow a b c d).pk = s.pk := rfl
@[simp] theorem latchWindow_cmdb (s : State) (a b c d : Word) : (s.latchWindow a b c d).cmdb = s.cmdb := rfl
@[simp] theorem latchWindow_cnt (s : State) (a b c d : Word) : (s.latchWindow a b c d).cnt = s.cnt := rfl
@[simp] theorem latchWindow_scr (s : State) (a b c d : Word) : (s.latchWindow a b c d).scr = s.scr := rfl
@[simp] theorem latchWindow_slen (s : State) (a b c d : Word) : (s.latchWindow a b c d).slen = s.slen := rfl
@[simp] theorem latchWindow_xcnt (s : State) (a b c d : Word) : (s.latchWindow a b c d).xcnt = s.xcnt := rfl
@[simp] theorem latchWindow_seqpc (s : State) (a b c d : Word) : (s.latchWindow a b c d).seqpc = s.seqpc := rfl
@[simp] theorem latchWindow_opr (s : State) (a b c d : Word) : (s.latchWindow a b c d).opr = s.opr := rfl
@[simp] theorem latchWindow_bld (s : State) (a b c d : Word) : (s.latchWindow a b c d).bld = s.bld := rfl
@[simp] theorem latchWindow_life (s : State) (a b c d : Word) : (s.latchWindow a b c d).life = s.life := rfl
@[simp] theorem latchWindow_trace (s : State) (a b c d : Word) : (s.latchWindow a b c d).trace = s.trace := rfl
@[simp] theorem latchWindow_srcb (s : State) (a b c d : Word) : (s.latchWindow a b c d).srcb = s.srcb := rfl
@[simp] theorem latchWindow_srcc (s : State) (a b c d : Word) : (s.latchWindow a b c d).srcc = s.srcc := rfl
@[simp] theorem latchWindow_port (s : State) (a b c d : Word) : (s.latchWindow a b c d).port = s.port := rfl
@[simp] theorem latchWindow_responses (s : State) (a b c d : Word) : (s.latchWindow a b c d).responses = s.responses := rfl
@[simp] theorem latchWindow_busErrs (s : State) (a b c d : Word) : (s.latchWindow a b c d).busErrs = s.busErrs := rfl
@[simp] theorem latchWindow_panel (s : State) (a b c d : Word) : (s.latchWindow a b c d).panel = s.panel := rfl

@[simp] theorem tearDown_cfg (s : State) : s.tearDown.cfg = s.cfg := rfl
@[simp] theorem tearDown_cs (s : State) : s.tearDown.cs = s.cs := rfl
@[simp] theorem tearDown_dc (s : State) : s.tearDown.dc = s.dc := rfl
@[simp] theorem tearDown_res (s : State) : s.tearDown.res = s.res := rfl
@[simp] theorem tearDown_busy (s : State) : s.tearDown.busy = s.busy := rfl
@[simp] theorem tearDown_fault (s : State) : s.tearDown.fault = s.fault := rfl
@[simp] theorem tearDown_finfo (s : State) : s.tearDown.finfo = s.finfo := rfl
@[simp] theorem tearDown_pstate (s : State) : s.tearDown.pstate = s.pstate := rfl
@[simp] theorem tearDown_x0 (s : State) : s.tearDown.x0 = s.x0 := rfl
@[simp] theorem tearDown_x1 (s : State) : s.tearDown.x1 = s.x1 := rfl
@[simp] theorem tearDown_y0 (s : State) : s.tearDown.y0 = s.y0 := rfl
@[simp] theorem tearDown_y1 (s : State) : s.tearDown.y1 = s.y1 := rfl
@[simp] theorem tearDown_cr (s : State) : s.tearDown.cr = s.cr := rfl
@[simp] theorem tearDown_cg (s : State) : s.tearDown.cg = s.cg := rfl
@[simp] theorem tearDown_cb (s : State) : s.tearDown.cb = s.cb := rfl
@[simp] theorem tearDown_pk (s : State) : s.tearDown.pk = s.pk := rfl
@[simp] theorem tearDown_cmdb (s : State) : s.tearDown.cmdb = s.cmdb := rfl
@[simp] theorem tearDown_cnt (s : State) : s.tearDown.cnt = s.cnt := rfl
@[simp] theorem tearDown_scr (s : State) : s.tearDown.scr = s.scr := rfl
@[simp] theorem tearDown_slen (s : State) : s.tearDown.slen = s.slen := rfl
@[simp] theorem tearDown_xcnt (s : State) : s.tearDown.xcnt = s.xcnt := rfl
@[simp] theorem tearDown_seqpc (s : State) : s.tearDown.seqpc = s.seqpc := rfl
@[simp] theorem tearDown_opr (s : State) : s.tearDown.opr = s.opr := rfl
@[simp] theorem tearDown_bld (s : State) : s.tearDown.bld = s.bld := rfl
@[simp] theorem tearDown_life (s : State) : s.tearDown.life = .tornDown := rfl
@[simp] theorem tearDown_trace (s : State) : s.tearDown.trace = s.trace := rfl
@[simp] theorem tearDown_srcb (s : State) : s.tearDown.srcb = s.srcb := rfl
@[simp] theorem tearDown_srcc (s : State) : s.tearDown.srcc = s.srcc := rfl
@[simp] theorem tearDown_port (s : State) : s.tearDown.port = s.port := rfl
@[simp] theorem tearDown_responses (s : State) : s.tearDown.responses = s.responses := rfl
@[simp] theorem tearDown_busErrs (s : State) : s.tearDown.busErrs = s.busErrs := rfl
@[simp] theorem tearDown_panel (s : State) : s.tearDown.panel = s.panel := rfl

@[simp] theorem consume_cfg (s : State) : s.consume.cfg = s.cfg := rfl
@[simp] theorem consume_cs (s : State) : s.consume.cs = s.cs := rfl
@[simp] theorem consume_dc (s : State) : s.consume.dc = s.dc := rfl
@[simp] theorem consume_res (s : State) : s.consume.res = s.res := rfl
@[simp] theorem consume_busy (s : State) : s.consume.busy = s.busy := rfl
@[simp] theorem consume_fault (s : State) : s.consume.fault = s.fault := rfl
@[simp] theorem consume_finfo (s : State) : s.consume.finfo = s.finfo := rfl
@[simp] theorem consume_pstate (s : State) : s.consume.pstate = s.pstate := rfl
@[simp] theorem consume_x0 (s : State) : s.consume.x0 = s.x0 := rfl
@[simp] theorem consume_x1 (s : State) : s.consume.x1 = s.x1 := rfl
@[simp] theorem consume_y0 (s : State) : s.consume.y0 = s.y0 := rfl
@[simp] theorem consume_y1 (s : State) : s.consume.y1 = s.y1 := rfl
@[simp] theorem consume_cr (s : State) : s.consume.cr = s.cr := rfl
@[simp] theorem consume_cg (s : State) : s.consume.cg = s.cg := rfl
@[simp] theorem consume_cb (s : State) : s.consume.cb = s.cb := rfl
@[simp] theorem consume_pk (s : State) : s.consume.pk = s.pk := rfl
@[simp] theorem consume_cmdb (s : State) : s.consume.cmdb = s.cmdb := rfl
@[simp] theorem consume_cnt (s : State) : s.consume.cnt = s.cnt := rfl
@[simp] theorem consume_scr (s : State) : s.consume.scr = s.scr := rfl
@[simp] theorem consume_slen (s : State) : s.consume.slen = s.slen := rfl
@[simp] theorem consume_xcnt (s : State) : s.consume.xcnt = s.xcnt := rfl
@[simp] theorem consume_seqpc (s : State) : s.consume.seqpc = s.seqpc := rfl
@[simp] theorem consume_opr (s : State) : s.consume.opr = s.opr := rfl
@[simp] theorem consume_bld (s : State) : s.consume.bld = s.bld := rfl
@[simp] theorem consume_life (s : State) : s.consume.life = s.life := rfl
@[simp] theorem consume_trace (s : State) : s.consume.trace = s.trace := rfl
@[simp] theorem consume_srcb (s : State) : s.consume.srcb = s.srcb := rfl
@[simp] theorem consume_srcc (s : State) : s.consume.srcc = s.srcc := rfl
@[simp] theorem consume_port (s : State) : s.consume.port = s.port.tail := rfl
@[simp] theorem consume_responses (s : State) : s.consume.responses = s.responses := rfl
@[simp] theorem consume_busErrs (s : State) : s.consume.busErrs = s.busErrs := rfl
@[simp] theorem consume_panel (s : State) : s.consume.panel = s.panel := rfl

@[simp] theorem present_cfg (s : State) (e : Encoded) : (s.present e).cfg = s.cfg := rfl
@[simp] theorem present_cs (s : State) (e : Encoded) : (s.present e).cs = s.cs := rfl
@[simp] theorem present_dc (s : State) (e : Encoded) : (s.present e).dc = s.dc := rfl
@[simp] theorem present_res (s : State) (e : Encoded) : (s.present e).res = s.res := rfl
@[simp] theorem present_busy (s : State) (e : Encoded) : (s.present e).busy = s.busy := rfl
@[simp] theorem present_fault (s : State) (e : Encoded) : (s.present e).fault = s.fault := rfl
@[simp] theorem present_finfo (s : State) (e : Encoded) : (s.present e).finfo = s.finfo := rfl
@[simp] theorem present_pstate (s : State) (e : Encoded) : (s.present e).pstate = s.pstate := rfl
@[simp] theorem present_x0 (s : State) (e : Encoded) : (s.present e).x0 = s.x0 := rfl
@[simp] theorem present_x1 (s : State) (e : Encoded) : (s.present e).x1 = s.x1 := rfl
@[simp] theorem present_y0 (s : State) (e : Encoded) : (s.present e).y0 = s.y0 := rfl
@[simp] theorem present_y1 (s : State) (e : Encoded) : (s.present e).y1 = s.y1 := rfl
@[simp] theorem present_cr (s : State) (e : Encoded) : (s.present e).cr = s.cr := rfl
@[simp] theorem present_cg (s : State) (e : Encoded) : (s.present e).cg = s.cg := rfl
@[simp] theorem present_cb (s : State) (e : Encoded) : (s.present e).cb = s.cb := rfl
@[simp] theorem present_pk (s : State) (e : Encoded) : (s.present e).pk = s.pk := rfl
@[simp] theorem present_cmdb (s : State) (e : Encoded) : (s.present e).cmdb = s.cmdb := rfl
@[simp] theorem present_cnt (s : State) (e : Encoded) : (s.present e).cnt = s.cnt := rfl
@[simp] theorem present_scr (s : State) (e : Encoded) : (s.present e).scr = s.scr := rfl
@[simp] theorem present_slen (s : State) (e : Encoded) : (s.present e).slen = s.slen := rfl
@[simp] theorem present_xcnt (s : State) (e : Encoded) : (s.present e).xcnt = s.xcnt := rfl
@[simp] theorem present_seqpc (s : State) (e : Encoded) : (s.present e).seqpc = s.seqpc := rfl
@[simp] theorem present_opr (s : State) (e : Encoded) : (s.present e).opr = s.opr := rfl
@[simp] theorem present_bld (s : State) (e : Encoded) : (s.present e).bld = s.bld := rfl
@[simp] theorem present_life (s : State) (e : Encoded) : (s.present e).life = s.life := rfl
@[simp] theorem present_trace (s : State) (e : Encoded) : (s.present e).trace = s.trace := rfl
@[simp] theorem present_srcb (s : State) (e : Encoded) : (s.present e).srcb = s.srcb := rfl
@[simp] theorem present_srcc (s : State) (e : Encoded) : (s.present e).srcc = s.srcc := rfl
@[simp] theorem present_port (s : State) (e : Encoded) : (s.present e).port = .operation e :: s.port := rfl
@[simp] theorem present_responses (s : State) (e : Encoded) : (s.present e).responses = s.responses := rfl
@[simp] theorem present_busErrs (s : State) (e : Encoded) : (s.present e).busErrs = s.busErrs := rfl
@[simp] theorem present_panel (s : State) (e : Encoded) : (s.present e).panel = s.panel := rfl

end Sys2Proof.Machine
end

