-- ==== Sys2Proof/Laws/Ops.lean ====
section
/-! SUPPORT. What each shared operation can do, said once: the transfer primitive, the micro-operations, the sequencer,
an instruction, a step. -/

namespace Sys2Proof.Machine

variable {s t : State}

/-- A ready TPC is constructed, not faulted and not busy. -/
theorem ready_iff : s.ready = true ↔ s.life = .constructed ∧ s.fault = false ∧ s.busy = false := by
  simp [State.ready, and_assoc]

theorem not_halted_of_ready (h : s.ready = true) : s.halted = false := by
  obtain ⟨h1, h2, -⟩ := ready_iff.mp h
  simp [State.halted, h1, h2]

theorem halted_eq_false_iff : s.halted = false ↔ s.fault = false ∧ s.life = .constructed := by
  unfold State.halted
  cases s.life <;> simp

/-! ### The transfer primitive -/

/-- The state in which a transfer has written `DC` and counted itself (R122). -/
abbrev State.started (s : State) (dc : Bit) : State := { s with dc := dc, xcnt := s.xcnt + 1 }

theorem xfer_good {dc : Bit} {bytes : List Byte} (hne : bytes ≠ []) (hlen : bytes.length ≤ Config.maxXferBytes)
    (hbus : s.busErr s.xcnt = false) : s.xfer dc bytes = .next ((s.started dc).shiftOut dc bytes) := by
  simp [State.xfer, hne, hbus, Nat.not_lt.mpr hlen]

theorem xfer_bad {dc : Bit} {bytes : List Byte} (hne : bytes ≠ [])
    (hbad : Config.maxXferBytes < bytes.length ∨ s.busErr s.xcnt = true) :
    s.xfer dc bytes = .next ((s.started dc).failTransfer s.xcnt dc bytes) := by
  simp only [State.xfer, List.isEmpty_iff, hne, if_false]
  rcases hbad with h | h <;> simp [h]

/-- All a transfer can do. -/
theorem xfer_cases {dc : Bit} {bytes : List Byte} (h : s.xfer dc bytes = .next t) :
    bytes ≠ [] ∧
      ((bytes.length ≤ Config.maxXferBytes ∧ s.busErr s.xcnt = false ∧ t = (s.started dc).shiftOut dc bytes)
        ∨ ((Config.maxXferBytes < bytes.length ∨ s.busErr s.xcnt = true)
            ∧ t = (s.started dc).failTransfer s.xcnt dc bytes)) := by
  unfold State.xfer at h
  split at h
  · exact absurd h (by simp)
  · rename_i hne
    refine ⟨by simpa using hne, ?_⟩
    split at h
    · rename_i hbad
      refine .inr ⟨by simpa using hbad, ?_⟩
      exact (Host.Outcome.next.inj h).symm
    · rename_i hok
      simp only [Bool.or_eq_true, decide_eq_true_eq, not_or, Bool.not_eq_true] at hok
      exact .inl ⟨Nat.not_lt.mp hok.1, hok.2, (Host.Outcome.next.inj h).symm⟩

/-- A transfer of at least one byte answers a next state. -/
theorem xfer_answers (s : State) (dc : Bit) {bytes : List Byte} (hne : bytes ≠ []) :
    ∃ t, s.xfer dc bytes = .next t := by
  by_cases h : Config.maxXferBytes < bytes.length ∨ s.busErr s.xcnt = true
  · exact ⟨_, xfer_bad hne h⟩
  · simp only [not_or, Bool.not_eq_true] at h
    exact ⟨_, xfer_good hne (Nat.not_lt.mp h.1) h.2⟩

/-! ### The micro-operations -/

@[simp] theorem advance_next (s : State) :
    advance (.next s) = .next (if s.fault then s else { s with seqpc := s.seqpc + 1 }) := rfl

@[simp] theorem clearSlen_next (s : State) :
    clearSlen (.next s) = .next (if s.fault then s else { s with slen := 0 }) := rfl

@[simp] theorem finish_next (s : State) : finish (.next s) = .next (if s.fault then s else s.complete) := rfl

theorem advance_ok (hf : s.fault = false) : advance (.next s) = .next { s with seqpc := s.seqpc + 1 } := by
  rw [advance_next, if_neg (by simp [hf])]

theorem advance_faulted (hf : s.fault = true) : advance (.next s) = .next s := by
  rw [advance_next, if_pos hf]

theorem clearSlen_ok (hf : s.fault = false) : clearSlen (.next s) = .next { s with slen := 0 } := by
  rw [clearSlen_next, if_neg (by simp [hf])]

theorem clearSlen_faulted (hf : s.fault = true) : clearSlen (.next s) = .next s := by
  rw [clearSlen_next, if_pos hf]

theorem run_xc_good {b : Byte} (hf : s.fault = false) (hbus : s.busErr s.xcnt = false) :
    (MicroOp.xc b).run s = .next
      { s with
        cmdb := b, dc := 0, cs := 1, xcnt := s.xcnt + 1, seqpc := s.seqpc + 1
        trace := s.trace ++ [.xfer 0 [b]], panel := s.panel.onEvent s.cfg (.xfer 0 [b]) } := by
  have hx : State.xfer { s with cmdb := b } 0 [b] = _ :=
    xfer_good (List.cons_ne_nil _ _) (by simp [Config.maxXferBytes]) hbus
  show advance (State.xfer { s with cmdb := b } 0 [b]) = _
  rw [hx]
  exact advance_ok hf

theorem run_xd_good {bytes : List Byte} (hne : bytes ≠ []) (hlen : bytes.length ≤ Config.maxXferBytes)
    (hf : s.fault = false) (hbus : s.busErr s.xcnt = false) :
    (MicroOp.xd bytes).run s = .next
      { s with
        dc := 1, cs := 1, xcnt := s.xcnt + 1, seqpc := s.seqpc + 1
        trace := s.trace ++ [.xfer 1 bytes], panel := s.panel.onEvent s.cfg (.xfer 1 bytes) } := by
  show advance (s.xfer 1 bytes) = _
  rw [xfer_good hne hlen hbus]
  exact advance_ok hf

theorem run_stage {k : Nat} (hf : s.fault = false) :
    (MicroOp.stage k).run s = .next { s.stage k with seqpc := s.seqpc + 1 } := advance_ok (s := s.stage k) hf

theorem run_xs_good {bytes : List Byte} (hr : Scratch.readFrom s.scr 0 s.slen = bytes) (hne : bytes ≠ [])
    (hlen : bytes.length ≤ Config.maxXferBytes) (hf : s.fault = false) (hbus : s.busErr s.xcnt = false) :
    MicroOp.xs.run s = .next
      { s with
        dc := 1, cs := 1, xcnt := s.xcnt + 1, seqpc := s.seqpc + 1, slen := 0
        trace := s.trace ++ [.xfer 1 bytes], panel := s.panel.onEvent s.cfg (.xfer 1 bytes) } := by
  have hx : s.sendScratch = clearSlen (.next ((s.started 1).shiftOut 1 bytes)) := by
    simp only [State.sendScratch, hr, xfer_good hne hlen hbus]
  show advance s.sendScratch = _
  rw [hx, clearSlen_ok (s := (s.started 1).shiftOut 1 bytes) hf]
  exact advance_ok hf

theorem run_resl (hf : s.fault = false) :
    MicroOp.resl.run s = .next
      { s with
        res := 0, seqpc := s.seqpc + 1, trace := s.trace ++ [.res 0], panel := s.panel.onEvent s.cfg (.res 0) } :=
  advance_ok (s := State.emit { s with res := 0 } (.res 0)) hf

theorem run_resh (hf : s.fault = false) :
    MicroOp.resh.run s = .next
      { s with
        res := 1, seqpc := s.seqpc + 1, trace := s.trace ++ [.res 1], panel := s.panel.onEvent s.cfg (.res 1) } :=
  advance_ok (s := State.emit { s with res := 1 } (.res 1)) hf

theorem run_wait {ms : Nat} (hf : s.fault = false) :
    (MicroOp.wait ms).run s = .next
      { s with
        seqpc := s.seqpc + 1, trace := s.trace ++ [.wait ms], panel := s.panel.onEvent s.cfg (.wait ms) } :=
  advance_ok (s := s.emit (.wait ms)) hf

theorem run_blset {d : Nat} (hf : s.fault = false) :
    (MicroOp.blset d).run s = .next
      { s with
        bld := some d, seqpc := s.seqpc + 1, trace := s.trace ++ [.bl d]
        panel := s.panel.onEvent s.cfg (.bl d) } :=
  advance_ok (s := State.emit { s with bld := some d } (.bl d)) hf

theorem run_pst {p : PState} (hf : s.fault = false) :
    (MicroOp.pst p).run s = .next { s with pstate := p, seqpc := s.seqpc + 1 } :=
  advance_ok (s := { s with pstate := p }) hf

/-- The bytes and the `DC` level of a micro-operation that performs a transfer, in the state it runs in (R96). -/
def MicroOp.transfer (s : State) : MicroOp → Option (Bit × List Byte)
  | .xc b => some (0, [b])
  | .xd bytes => some (1, bytes)
  | .xs => some (1, Scratch.readFrom s.scr 0 s.slen)
  | .stage _ => none
  | .resl => none
  | .resh => none
  | .wait _ => none
  | .blset _ => none
  | .pst _ => none

/-- The latch a micro-operation writes before it transfers: `CMDB` for `XC` (R32). -/
def MicroOp.latched (s : State) : MicroOp → State
  | .xc b => { s with cmdb := b }
  | .xd _ => s
  | .xs => s
  | .stage _ => s
  | .resl => s
  | .resh => s
  | .wait _ => s
  | .blset _ => s
  | .pst _ => s

/-- The state after a completed transfer by a micro-operation: `XS` also empties the scratch buffer (R175). -/
def MicroOp.afterTransfer (s : State) : MicroOp → State
  | .xs => { s with slen := 0 }
  | .xc _ => s
  | .xd _ => s
  | .stage _ => s
  | .resl => s
  | .resh => s
  | .wait _ => s
  | .blset _ => s
  | .pst _ => s

/-- The effect of a micro-operation that performs no transfer. -/
def MicroOp.quiet (s : State) : MicroOp → State
  | .stage k => s.stage k
  | .resl => { s with res := 0 }.emit (.res 0)
  | .resh => { s with res := 1 }.emit (.res 1)
  | .wait ms => s.emit (.wait ms)
  | .blset d => { s with bld := some d }.emit (.bl d)
  | .pst p => { s with pstate := p }
  | .xc _ => s
  | .xd _ => s
  | .xs => s

/-- All a micro-operation can do: its quiet effect, a good transfer, or a failed one. -/
theorem run_cases {m : MicroOp} (hf : s.fault = false) (h : m.run s = .next t) :
    (m.transfer s = none ∧ t = { m.quiet s with seqpc := s.seqpc + 1 })
      ∨ ∃ dc bytes, m.transfer s = some (dc, bytes) ∧ bytes ≠ [] ∧
          ((bytes.length ≤ Config.maxXferBytes ∧ s.busErr s.xcnt = false
              ∧ t = { m.afterTransfer (((m.latched s).started dc).shiftOut dc bytes) with seqpc := s.seqpc + 1 })
            ∨ ((Config.maxXferBytes < bytes.length ∨ s.busErr s.xcnt = true)
                ∧ t = ((m.latched s).started dc).failTransfer s.xcnt dc bytes)) := by
  have quietly : ∀ {u : State}, u.fault = false → advance (.next u) = .next t →
      t = { u with seqpc := u.seqpc + 1 } := by
    intro u hu he
    rw [advance_ok hu] at he
    exact (Host.Outcome.next.inj he).symm
  have transfers : ∀ {u : State} {dc : Bit} {bytes : List Byte}, u.fault = false → u.seqpc = s.seqpc →
      u.busErr u.xcnt = s.busErr s.xcnt → u.xcnt = s.xcnt → advance (u.xfer dc bytes) = .next t →
      bytes ≠ [] ∧ ((bytes.length ≤ Config.maxXferBytes ∧ s.busErr s.xcnt = false
          ∧ t = { (u.started dc).shiftOut dc bytes with seqpc := s.seqpc + 1 })
        ∨ ((Config.maxXferBytes < bytes.length ∨ s.busErr s.xcnt = true)
          ∧ t = (u.started dc).failTransfer s.xcnt dc bytes)) := by
    intro u dc bytes hu hpc hbus hx he
    rcases hu' : u.xfer dc bytes with v | r | r
    · rw [hu'] at he
      obtain ⟨hne, ⟨hl, hb, rfl⟩ | ⟨hb, rfl⟩⟩ := xfer_cases hu'
      · refine ⟨hne, .inl ⟨hl, hbus ▸ hb, ?_⟩⟩
        rw [advance_ok (s := (u.started dc).shiftOut dc bytes) hu] at he
        rw [← Host.Outcome.next.inj he, ← hpc]
        rfl
      · refine ⟨hne, .inr ⟨hbus ▸ hb, ?_⟩⟩
        rw [advance_faulted (failTransfer_fault _ _ _ _)] at he
        rw [← Host.Outcome.next.inj he, ← hx]
    · rw [hu'] at he; exact absurd he (by simp [advance])
    · rw [hu'] at he; exact absurd he (by simp [advance])
  cases m with
  | xc b => exact .inr ⟨0, [b], rfl, transfers (u := { s with cmdb := b }) hf rfl rfl rfl h⟩
  | xd bytes => exact .inr ⟨1, bytes, rfl, transfers (u := s) hf rfl rfl rfl h⟩
  | stage k => exact .inl ⟨rfl, quietly (u := s.stage k) hf h⟩
  | resl => exact .inl ⟨rfl, quietly (u := State.emit { s with res := 0 } (.res 0)) hf h⟩
  | resh => exact .inl ⟨rfl, quietly (u := State.emit { s with res := 1 } (.res 1)) hf h⟩
  | wait ms => exact .inl ⟨rfl, quietly (u := s.emit (.wait ms)) hf h⟩
  | blset d => exact .inl ⟨rfl, quietly (u := State.emit { s with bld := some d } (.bl d)) hf h⟩
  | pst p => exact .inl ⟨rfl, quietly (u := { s with pstate := p }) hf h⟩
  | xs =>
    have hrun : MicroOp.xs.run s = advance s.sendScratch := rfl
    rw [hrun, State.sendScratch] at h
    refine .inr ⟨1, _, rfl, ?_⟩
    rcases hx : s.xfer 1 (Scratch.readFrom s.scr 0 s.slen) with v | r | r <;> rw [hx] at h
    · obtain ⟨hne, ⟨hl, hb, rfl⟩ | ⟨hb, rfl⟩⟩ := xfer_cases hx
      · refine ⟨hne, .inl ⟨hl, hb, ?_⟩⟩
        rw [clearSlen_ok (s := (s.started 1).shiftOut 1 _) hf, advance_ok (by exact hf)] at h
        exact (Host.Outcome.next.inj h).symm
      · refine ⟨hne, .inr ⟨hb, ?_⟩⟩
        rw [clearSlen_faulted (failTransfer_fault _ _ _ _), advance_faulted (failTransfer_fault _ _ _ _)] at h
        exact (Host.Outcome.next.inj h).symm
    · exact absurd h (by simp [advance, clearSlen])
    · exact absurd h (by simp [advance, clearSlen])

/-! ### The sequencer -/

@[simp] theorem runOps_nil (s : State) : runOps [] s = .next s := rfl

theorem runOps_cons_next {m : MicroOp} {ms : List MicroOp} (h : m.run s = .next t) (hf : t.fault = false) :
    runOps (m :: ms) s = runOps ms t := by simp [runOps, h, hf]

theorem runOps_cons_fault {m : MicroOp} {ms : List MicroOp} (h : m.run s = .next t) (hf : t.fault = true) :
    runOps (m :: ms) s = .next t := by simp [runOps, h, hf]

/-- The first micro-operation of a list that answers, and what follows it. -/
theorem runOps_cons_cases {m : MicroOp} {ms : List MicroOp} (h : runOps (m :: ms) s = .next t) :
    ∃ u, m.run s = .next u ∧ ((u.fault = true ∧ t = u) ∨ (u.fault = false ∧ runOps ms u = .next t)) := by
  unfold runOps at h
  rcases hm : m.run s with u | r | r
  · rw [hm] at h
    refine ⟨u, rfl, ?_⟩
    cases hf : u.fault
    · exact .inr ⟨rfl, by simpa [hf] using h⟩
    · exact .inl ⟨rfl, by simpa [hf] using h.symm⟩
  · rw [hm] at h; exact absurd h (by simp)
  · rw [hm] at h; exact absurd h (by simp)

/-- Lists run one after the other. -/
theorem runOps_append {ms ns : List MicroOp} (h : runOps ms s = .next t) (hf : t.fault = false) :
    runOps (ms ++ ns) s = runOps ns t := by
  induction ms generalizing s with
  | nil => simp only [runOps_nil, Host.Outcome.next.injEq] at h; simp [h]
  | cons m ms ih =>
    obtain ⟨u, hm, ⟨hu, rfl⟩ | ⟨hu, hr⟩⟩ := runOps_cons_cases h
    · rw [hf] at hu; exact absurd hu (by simp)
    · rw [List.cons_append, runOps_cons_next hm hu, ih hr]

/-- What every micro-operation keeps, a list of them keeps. -/
theorem runOps_keeps {P : State → Prop}
    (hP : ∀ m s t, P s → s.fault = false → MicroOp.run m s = .next t → P t) {ms : List MicroOp}
    (hs : P s) (hf : s.fault = false) (h : runOps ms s = .next t) : P t := by
  induction ms generalizing s with
  | nil => simp only [runOps_nil, Host.Outcome.next.injEq] at h; exact h ▸ hs
  | cons m ms ih =>
    obtain ⟨u, hm, ⟨_, rfl⟩ | ⟨hu, hr⟩⟩ := runOps_cons_cases h
    · exact hP _ _ _ hs hf hm
    · exact ih (hP _ _ _ hs hf hm) hu hr

/-- All that driving an operation can do: its list's run, then completion unless it faulted. -/
theorem drive_cases (h : s.drive = .next t) :
    ∃ u, runOps s.sequence s = .next u ∧ ((u.fault = true ∧ t = u) ∨ (u.fault = false ∧ t = u.complete)) := by
  unfold State.drive at h
  rcases hr : runOps s.sequence s with u | r | r
  · rw [hr, finish_next] at h
    refine ⟨u, rfl, ?_⟩
    cases hf : u.fault
    · exact .inr ⟨rfl, by simpa [hf] using h.symm⟩
    · exact .inl ⟨rfl, by simpa [hf] using h.symm⟩
  · rw [hr] at h; exact absurd h (by simp [finish])
  · rw [hr] at h; exact absurd h (by simp [finish])

theorem drive_of_runOps {u : State} (h : runOps s.sequence s = .next u) (hf : u.fault = false) :
    s.drive = .next u.complete := by simp [State.drive, h, hf]

/-! ### Instructions -/

@[simp] theorem whenReady_true {o : Host.Outcome State Fault Refusal} (h : s.ready = true) :
    whenReady s o = o := by simp [whenReady, h]

@[simp] theorem whenReady_false {o : Host.Outcome State Fault Refusal} (h : s.ready = false) :
    whenReady s o = .next s := by simp [whenReady, h]

/-- Every instruction but `PACK` is its accepted request, driven to its end, where it is accepted. -/
theorem exec_eq_drive (i : Instr) (hp : ∀ r g b, i ≠ .pack r g b) (s : State) :
    exec i s = whenReady s (accepted i s).drive := by
  cases i with
  | pack r g b => exact absurd rfl (hp r g b)
  | _ => rfl

/-- All an instruction can do: nothing where it is not accepted; pack a color; or drive its list. -/
theorem exec_cases {i : Instr} (h : exec i s = .next t) :
    (s.ready = false ∧ t = s)
      ∨ (s.ready = true ∧ ∃ r g b, i = .pack r g b ∧ t = s.packed r g b)
      ∨ (s.ready = true ∧ (∀ r g b, i ≠ .pack r g b) ∧ (accepted i s).drive = .next t) := by
  cases hr : s.ready
  · left
    refine ⟨rfl, ?_⟩
    by_cases hp : ∃ r g b, i = .pack r g b
    · obtain ⟨r, g, b, rfl⟩ := hp
      have h' : whenReady s _ = .next t := h
      rw [whenReady_false hr] at h'
      exact (Host.Outcome.next.inj h').symm
    · rw [exec_eq_drive i (fun r g b he => hp ⟨r, g, b, he⟩), whenReady_false hr] at h
      exact (Host.Outcome.next.inj h).symm
  · right
    by_cases hp : ∃ r g b, i = .pack r g b
    · obtain ⟨r, g, b, rfl⟩ := hp
      have h' : whenReady s _ = .next t := h
      rw [whenReady_true hr] at h'
      exact .inl ⟨rfl, r, g, b, rfl, (Host.Outcome.next.inj h').symm⟩
    · have hp' : ∀ r g b, i ≠ .pack r g b := fun r g b he => hp ⟨r, g, b, he⟩
      rw [exec_eq_drive i hp', whenReady_true hr] at h
      exact .inr ⟨rfl, hp', h⟩

/-- Acceptance leaves TPC busy at step 0 and not faulted (R92). -/
theorem accepted_facts {i : Instr} (hp : ∀ r g b, i ≠ .pack r g b) (s : State) :
    (accepted i s).busy = true ∧ (accepted i s).seqpc = 0 ∧ (accepted i s).fault = s.fault
      ∧ (accepted i s).life = s.life := by
  cases i with
  | pack r g b => exact absurd rfl (hp r g b)
  | _ => exact ⟨rfl, rfl, rfl, rfl⟩

/-- The induction over one instruction, packaged: `P` holds between operations, `Q` while one runs. -/
theorem exec_keeps {P Q : State → Prop} {i : Instr} (hs : P s) (h : exec i s = .next t)
    (hpack : ∀ r g b, P (s.packed r g b))
    (hacc : s.ready = true → (∀ r g b, i ≠ .pack r g b) → Q (accepted i s))
    (hrun : ∀ m u v, Q u → u.fault = false → MicroOp.run m u = .next v → Q v)
    (hdone : ∀ u, Q u → u.fault = false → P u.complete) (hfault : ∀ u, Q u → u.fault = true → P u) : P t := by
  rcases exec_cases h with ⟨-, rfl⟩ | ⟨-, r, g, b, -, rfl⟩ | ⟨hr, hp, hd⟩
  · exact hs
  · exact hpack r g b
  · have hf : (accepted i s).fault = false := by
      rw [(accepted_facts hp s).2.2.1]; exact (ready_iff.mp hr).2.1
    obtain ⟨u, hu, ⟨hf', rfl⟩ | ⟨hf', rfl⟩⟩ := drive_cases hd
    · exact hfault _ (runOps_keeps hrun (hacc hr hp) hf hu) hf'
    · exact hdone _ (runOps_keeps hrun (hacc hr hp) hf hu) hf'

/-! ### One move of TPC -/

theorem serve_halted {start : Instr → State → Host.Outcome State Fault Refusal} (h : s.halted = true) :
    serve start s = .next s := by simp [serve, h]

theorem serve_busy {start : Instr → State → Host.Outcome State Fault Refusal} (h : s.halted = false)
    (hb : s.busy = true) : serve start s = microStep s := by simp [serve, h, hb]

/-- A ready TPC that finds a request for an instruction starts it. -/
theorem serve_runs {start : Instr → State → Host.Outcome State Fault Refusal} {i : Instr} (h : s.ready = true)
    (hf : fetch s = .runs i) : serve start s = start i s.consume := by
  simp [serve, not_halted_of_ready h, (ready_iff.mp h).2.2, hf]

/-- A busy TPC's tick is its step. -/
theorem tick_eq_step_of_busy (h : s.halted = false) (hb : s.busy = true) : tick s = step s := by
  rw [tick, step, serve_busy h hb, serve_busy h hb]

theorem ticks_one (s : State) : ticks 1 s = tick s := by
  rw [ticks]
  rcases tick s with t | r | r <;> rfl

/-! ### A step -/

/-- All a step can do: nothing (halted, or waiting); complete; one micro-operation; teardown; an instruction; answer
REFUSED. -/
theorem step_cases (h : step s = .next t) :
    t = s
      ∨ (s.halted = false ∧ s.busy = true ∧ s.sequence[s.seqpc]? = none ∧ t = s.complete)
      ∨ (s.halted = false ∧ s.busy = true ∧ ∃ m, s.sequence[s.seqpc]? = some m ∧ m.run s = .next t)
      ∨ (s.ready = true ∧ t = s.consume.tearDown)
      ∨ (s.ready = true ∧ ∃ i, fetch s = .runs i ∧ exec i s.consume = .next t)
      ∨ (s.ready = true ∧ t = s.consume.respond .refused) := by
  unfold step serve at h
  cases hh : s.halted
  · rw [hh] at h
    simp only [Bool.false_eq_true, if_false] at h
    cases hb : s.busy
    · rw [hb] at h
      simp only [Bool.false_eq_true, if_false] at h
      have hready : s.ready = true :=
        ready_iff.mpr ⟨(halted_eq_false_iff.mp hh).2, (halted_eq_false_iff.mp hh).1, hb⟩
      rcases hfe : fetch s with _ | _ | i | _ | r <;> rw [hfe] at h <;> simp only at h
      · exact .inl (Host.Outcome.next.inj h).symm
      · exact .inr (.inr (.inr (.inl ⟨hready, (Host.Outcome.next.inj h).symm⟩)))
      · exact .inr (.inr (.inr (.inr (.inl ⟨hready, i, rfl, h⟩))))
      · exact .inr (.inr (.inr (.inr (.inr ⟨hready, (Host.Outcome.next.inj h).symm⟩))))
      · exact absurd h (by simp)
    · rw [hb] at h
      simp only [if_true] at h
      unfold microStep at h
      rcases hs : s.sequence[s.seqpc]? with _ | m <;> rw [hs] at h <;> simp only at h
      · exact .inr (.inl ⟨rfl, rfl, rfl, (Host.Outcome.next.inj h).symm⟩)
      · exact .inr (.inr (.inl ⟨rfl, rfl, m, rfl, h⟩))
  · rw [hh] at h
    exact .inl (Host.Outcome.next.inj h).symm

end Sys2Proof.Machine
end

