-- ==== Sys2Proof/Laws/Panel.lean ====
section
/-! SUPPORT. What the panel makes of an event, said once: its frame memory stays canonical, a refusal is for good, and
what each command byte and each data byte does. -/

namespace Sys2Proof.Machine

variable {cfg : Cfg} {p : Panel}

/-! ### The panel at construction -/

/-- The frame memory drawn at construction is canonical. -/
theorem wf_drawn (d : PanelDraw) : Memory.wf d.panel.mem := Memory.wf_ofCells d.mem

/-- Whatever the draw, no claim is made about the panel at construction (R205, R261). -/
@[simp] theorem color_drawn (d : PanelDraw) (col row : Nat) : d.panel.color col row = none := rfl

/-- Whatever the draw, the reset line going low leaves one and the same panel (log 16). -/
theorem resetLow_drawn (d e : PanelDraw) : d.panel.resetLow = e.panel.resetLow := rfl

/-! ### Lists of events -/

@[simp] theorem after_nil (cfg : Cfg) (p : Panel) : p.after cfg [] = p := rfl

@[simp] theorem after_cons (cfg : Cfg) (p : Panel) (e : Event) (es : List Event) :
    p.after cfg (e :: es) = (p.onEvent cfg e).after cfg es := rfl

theorem after_append (cfg : Cfg) (p : Panel) (es fs : List Event) :
    p.after cfg (es ++ fs) = (p.after cfg es).after cfg fs := List.foldl_append

/-- What every byte and every line change keeps, every event keeps. -/
theorem onEvent_keeps {P : Panel → Prop} (hbyte : ∀ q dc b, P q → P (q.byte cfg dc b))
    (hrefuse : ∀ q, P q → P q.refuse) (hlow : ∀ q, P q → P q.resetLow)
    (hdue : ∀ q n, P q → P { q with due := n }) (hp : P p) (e : Event) : P (p.onEvent cfg e) := by
  cases e with
  | xfer dc bytes =>
    show P (bytes.foldl (Panel.byte cfg dc) p)
    induction bytes generalizing p with
    | nil => exact hp
    | cons b bs ih => exact ih (hbyte p dc b hp)
  | xferFail dc bytes => exact hrefuse p hp
  | res level =>
    show P (if level = 0 then p.resetLow else p.resetHigh)
    split
    · exact hlow p hp
    · show P (if 0 < p.due then p.refuse else p)
      split
      · exact hrefuse p hp
      · exact hp
  | wait ms => exact hdue p (p.due - ms) hp
  | bl duty => exact hp

/-! ### A refusal is for good -/

theorem byte_refused (h : p.trust = .refused) (cfg : Cfg) (dc : Bit) (b : Byte) : p.byte cfg dc b = p := by
  simp [Panel.byte, h]

/-- U1, U9: after a refusal the panel is refused whatever follows. -/
theorem onEvent_refused (h : p.trust = .refused) (cfg : Cfg) (e : Event) :
    (p.onEvent cfg e).trust = .refused :=
  onEvent_keeps (P := fun q => q.trust = .refused) (fun q dc b hq => by rw [byte_refused hq]; exact hq)
    (fun _ _ => rfl) (fun q hq => by simp [Panel.resetLow, hq]) (fun _ _ hq => hq) h e

theorem after_refused (h : p.trust = .refused) (cfg : Cfg) (es : List Event) :
    (p.after cfg es).trust = .refused := by
  induction es generalizing p with
  | nil => exact h
  | cons e es ih => exact ih (onEvent_refused h cfg e)

/-! ### The frame memory stays canonical -/

theorem wf_nil_cells : Memory.wf ([] : List (Nat × Word)) := List.Pairwise.nil

theorem wf_discardHalf (h : Memory.wf p.mem) : Memory.wf p.discardHalf.mem := by
  unfold Panel.discardHalf
  split
  · exact h
  · split
    · exact Memory.wf_erase h _
    · exact wf_nil_cells

theorem wf_endStream (h : Memory.wf p.mem) : Memory.wf p.endStream.mem := by
  unfold Panel.endStream
  split
  · exact wf_nil_cells
  · exact wf_discardHalf h

theorem wf_commandEffect (h : Memory.wf p.mem) (cfg : Cfg) (c : WireCommand) :
    Memory.wf (p.commandEffect cfg c).mem := by
  have hif : ∀ (b : Bool) (q r : Panel), Memory.wf q.mem → Memory.wf r.mem →
      Memory.wf (if b = true then q else r).mem := by
    intro b q r hq hr
    cases b
    · exact hr
    · exact hq
  cases c with
  | swreset => exact wf_nil_cells
  | caset => exact hif _ _ _ h wf_nil_cells
  | raset => exact hif _ _ _ h wf_nil_cells
  | ramwr => exact hif _ _ _ h wf_nil_cells
  | _ => exact h

theorem wf_pixelByte (h : Memory.wf p.mem) (cfg : Cfg) (b : Byte) : Memory.wf (p.pixelByte cfg b).mem := by
  unfold Panel.pixelByte
  split
  · split
    · split
      · exact Memory.wf_erase h _
      · exact Memory.wf_write h _ _
    · exact wf_nil_cells
  · exact wf_nil_cells

theorem mem_applyPayload (c : WireCommand) (l : List Byte) (p : Panel) : (Panel.applyPayload c l p).mem = p.mem := by
  unfold Panel.applyPayload
  split <;> rfl

theorem wf_byte (h : Memory.wf p.mem) (cfg : Cfg) (dc : Bit) (b : Byte) : Memory.wf (p.byte cfg dc b).mem := by
  unfold Panel.byte
  split
  · exact h
  · split
    · unfold Panel.commandByte
      split
      · exact wf_nil_cells
      · split
        · exact wf_nil_cells
        · exact wf_commandEffect (wf_endStream h) cfg _
    · unfold Panel.dataByte
      split
      · exact wf_pixelByte h cfg b
      · split
        · exact wf_nil_cells
        · split
          · rw [mem_applyPayload]; exact h
          · exact h

/-- Every event keeps the canonical form of the frame memory. -/
theorem wf_onEvent (h : Memory.wf p.mem) (cfg : Cfg) (e : Event) : Memory.wf (p.onEvent cfg e).mem := by
  refine onEvent_keeps (P := fun q => Memory.wf q.mem) (fun q dc b hq => wf_byte hq cfg dc b)
    (fun _ _ => wf_nil_cells) (fun q hq => ?_) (fun _ _ hq => hq) h e
  show Memory.wf q.resetLow.mem
  unfold Panel.resetLow
  split
  · exact hq
  · split <;> exact wf_nil_cells

/-! ### Command bytes and data bytes -/

/-- U1, R270: the reset line going low while a delay is owed. -/
theorem resetLow_early (hd : 0 < p.due) : p.resetLow.trust = .refused := by
  unfold Panel.resetLow
  split
  · assumption
  · simp [Panel.refuse]

/-- A command of the thirteen, to a panel that is owed no delay (R205, R207). -/
theorem byte_command (hv : cfg.valid = true) (ht : p.trust ≠ .refused) (hd : p.due = 0) (c : WireCommand) :
    p.byte cfg 0 (cfg.opcode c) = p.endStream.commandEffect cfg c := by
  simp [Panel.byte, ht, Panel.commandByte, hd, decodeWire_opcode hv c]

/-- A command byte to a panel that is owed a delay (U1). -/
theorem byte_command_early (hd : 0 < p.due) (cfg : Cfg) (b : Byte) : (p.byte cfg 0 b).trust = .refused := by
  unfold Panel.byte
  split
  · assumption
  · simp [Panel.commandByte, hd, Panel.refuse]

/-- A byte of a fixed payload that does not complete it (R94). -/
theorem byte_payload_more (ht : p.trust ≠ .refused) (hw : p.writing ≠ some true) {c : WireCommand} {got : List Byte}
    (hp : p.pending = some (c, got)) (hn : c.payloadBytes ≠ some (got.length + 1)) (b : Byte) :
    p.byte cfg 1 b = { p with pending := some (c, got ++ [b]) } := by
  simp [Panel.byte, ht, Panel.dataByte, hw, hp, hn]

/-- The last byte of a fixed payload (R94). -/
theorem byte_payload_last (ht : p.trust ≠ .refused) (hw : p.writing ≠ some true) {c : WireCommand} {got : List Byte}
    (hp : p.pending = some (c, got)) (hn : c.payloadBytes = some (got.length + 1)) (b : Byte) :
    p.byte cfg 1 b = Panel.applyPayload c (got ++ [b]) { p with pending := none } := by
  simp [Panel.byte, ht, Panel.dataByte, hw, hp, hn]

/-- The first byte of a pixel (R208, U7). -/
theorem byte_pixel_high (ht : p.trust ≠ .refused) (hw : p.writing = some true) {cols rows : Word × Word}
    {col row : Nat} (hc : p.cols = some cols) (hr : p.rows = some rows) (hptr : p.ptr = some (col, row))
    (ho : Panel.windowOpen cfg cols rows row = true) (hh : p.half = none) (b : Byte) :
    p.byte cfg 1 b = { p with half := some b, mem := Memory.erase p.mem (pixelAddr col row) } := by
  simp [Panel.byte, ht, Panel.dataByte, hw, Panel.pixelByte, hc, hr, hptr, ho, hh]

/-- The second byte of a pixel (R208). -/
theorem byte_pixel_low (ht : p.trust ≠ .refused) (hw : p.writing = some true) {cols rows : Word × Word}
    {col row : Nat} (hc : p.cols = some cols) (hr : p.rows = some rows) (hptr : p.ptr = some (col, row))
    (ho : Panel.windowOpen cfg cols rows row = true) {hi : Byte} (hh : p.half = some hi) (b : Byte) :
    p.byte cfg 1 b =
      { p with
        half := none
        mem := Memory.write p.mem (pixelAddr col row) (ofBytes hi b)
        ptr := some (Panel.nextPtr cols col row) } := by
  simp [Panel.byte, ht, Panel.dataByte, hw, Panel.pixelByte, hc, hr, hptr, ho, hh]

/-- Different pixels have different addresses. -/
theorem pixelAddr_inj {c c' r r' : Nat} (hc : c < 65536) (hc' : c' < 65536) (h : pixelAddr c r = pixelAddr c' r') :
    c = c' ∧ r = r' := by
  unfold pixelAddr at h
  omega

end Sys2Proof.Machine
end

