-- ==== Sys2Proof/Laws/PerInstr.lean ====
section
/-! SUPPORT. The family EncodesItsCode: every instruction is encoded under the code or the opcode parameter that the
opcode table gives it (R90, R101), and no other. -/

namespace Sys2Proof.Laws.EncodesItsCode

/-- What identifies an instruction: its request code (R90) or its wire command (R101). -/
def key : Instr → BitVec 4 ⊕ WireCommand
  | .cmd _ => .inl 0x1
  | .dat _ => .inl 0x2
  | .rst => .inl 0x3
  | .init => .inl 0x4
  | .win _ _ _ _ => .inl 0x5
  | .ramwr => .inl 0x6
  | .pack _ _ _ => .inl 0x7
  | .ser _ => .inl 0x8
  | .swreset => .inr .swreset
  | .slpout => .inr .slpout
  | .colmod => .inr .colmod
  | .madctl => .inr .madctl
  | .porctrl => .inr .porctrl
  | .gctrl => .inr .gctrl
  | .vcoms => .inr .vcoms
  | .invon => .inr .invon
  | .noron => .inr .noron
  | .dispon => .inr .dispon
  | .caset => .inr .caset
  | .raset => .inr .raset
  | .ramwrWire => .inr .ramwr

/-- Under every configuration: a request whose code field is the operation's code, or the wire byte that is the
command's opcode parameter. -/
def Statement (i : Instr) : Prop :=
  ∀ cfg : Cfg,
    match key i with
    | .inl code => ∃ w src, encode cfg i = .request w src ∧ ReqWord.op w = code
    | .inr c => encode cfg i = .wire (cfg.opcode c)

theorem cmd (b : Byte) : Statement (.cmd b) := fun _ => ⟨_, _, rfl, op_reqWord _ _⟩
theorem dat (bytes : List Byte) : Statement (.dat bytes) := fun _ => ⟨_, _, rfl, op_reqWord _ _⟩
theorem rst : Statement .rst := fun _ => ⟨_, _, rfl, op_reqWord _ _⟩
theorem init : Statement .init := fun _ => ⟨_, _, rfl, op_reqWord _ _⟩
theorem win (x0 x1 y0 y1 : Word) : Statement (.win x0 x1 y0 y1) := fun _ => ⟨_, _, rfl, op_reqWord _ _⟩
theorem ramwr : Statement .ramwr := fun _ => ⟨_, _, rfl, op_reqWord _ _⟩
theorem pack (r g b : Byte) : Statement (.pack r g b) := fun _ => ⟨_, _, rfl, op_reqWord _ _⟩
theorem ser (colors : List Word) : Statement (.ser colors) := fun _ => ⟨_, _, rfl, op_reqWord _ _⟩
theorem swreset : Statement .swreset := fun cfg => encode_wire cfg .swreset
theorem slpout : Statement .slpout := fun cfg => encode_wire cfg .slpout
theorem colmod : Statement .colmod := fun cfg => encode_wire cfg .colmod
theorem madctl : Statement .madctl := fun cfg => encode_wire cfg .madctl
theorem porctrl : Statement .porctrl := fun cfg => encode_wire cfg .porctrl
theorem gctrl : Statement .gctrl := fun cfg => encode_wire cfg .gctrl
theorem vcoms : Statement .vcoms := fun cfg => encode_wire cfg .vcoms
theorem invon : Statement .invon := fun cfg => encode_wire cfg .invon
theorem noron : Statement .noron := fun cfg => encode_wire cfg .noron
theorem dispon : Statement .dispon := fun cfg => encode_wire cfg .dispon
theorem caset : Statement .caset := fun cfg => encode_wire cfg .caset
theorem raset : Statement .raset := fun cfg => encode_wire cfg .raset
theorem ramwrWire : Statement .ramwrWire := fun cfg => encode_wire cfg .ramwr

end Sys2Proof.Laws.EncodesItsCode
end

