-- ==== Sys2Proof/Laws/Staging.lean ====
section
/-! SUPPORT. The chunks of SER and the scratch buffer, and that the list in progress stays the same while it runs. -/

namespace Sys2Proof.Machine

variable {s t : State}

/-! ### Chunks -/

theorem length_colorBytes (l : List Word) : (colorBytes l).length = 2 * l.length := by
  induction l with
  | nil => rfl
  | cons c l ih =>
    show (be16 c ++ colorBytes l).length = _
    rw [List.length_append, ih, List.length_cons]
    show 2 + _ = _
    omega

/-- A chunk of a stream that has the stated length holds the colors R175 says. -/
theorem length_chunkColorsOf {colors : List Word} {n : Nat} (h : n ≤ colors.length) (k : Nat) :
    (chunkColorsOf colors n k).length = chunkSize n k := by
  simp only [chunkColorsOf, chunkSize, List.length_take, List.length_drop]
  omega

/-- No chunk is empty (R178). -/
theorem chunkSize_pos {n k : Nat} (h : k < chunkCount n) : 0 < chunkSize n k := by
  simp only [chunkCount, ceilDiv, chunkSize, Config.chunkColors] at h ⊢
  omega

theorem chunkSize_le (n k : Nat) : chunkSize n k ≤ 512 := by
  simp only [chunkSize, Config.chunkColors]
  omega

/-- What `STAGE(k)` wrote is what `XS` will read (R175, R176). -/
theorem readFrom_stage (h : s.cnt.toNat ≤ s.srcc.length) (k : Nat) :
    Scratch.readFrom (s.stage k).scr 0 (s.stage k).slen
      = colorBytes (chunkColorsOf s.srcc s.cnt.toNat k) := by
  have hl : 2 * chunkSize s.cnt.toNat k = (colorBytes (chunkColorsOf s.srcc s.cnt.toNat k)).length := by
    rw [length_colorBytes, length_chunkColorsOf h]
  show Scratch.readFrom (Scratch.writeFrom _ 0 _) 0 (2 * chunkSize s.cnt.toNat k) = _
  rw [hl]
  exact Scratch.readFrom_writeFrom _ _ _

/-- Outside the staged bytes the scratch buffer reads as before (R176). -/
theorem read_stage_other (h : s.cnt.toNat ≤ s.srcc.length) (k : Nat) {a : Nat}
    (ha : 2 * chunkSize s.cnt.toNat k ≤ a) : Scratch.read (s.stage k).scr a = Scratch.read s.scr a := by
  refine Scratch.read_writeFrom_other _ _ _ (.inr ?_)
  rw [length_colorBytes, length_chunkColorsOf h]
  omega

/-! ### The list in progress -/

theorem sequence_cmd (h : s.opr = 1) : s.sequence = seqCmd s := by unfold State.sequence; rw [h]; rfl
theorem sequence_dat (h : s.opr = 2) : s.sequence = seqDat s := by unfold State.sequence; rw [h]; rfl
theorem sequence_rst (h : s.opr = 3) : s.sequence = seqRst s := by unfold State.sequence; rw [h]; rfl
theorem sequence_init (h : s.opr = 4) : s.sequence = seqInit s := by unfold State.sequence; rw [h]; rfl
theorem sequence_win (h : s.opr = 5) : s.sequence = seqWin s := by unfold State.sequence; rw [h]; rfl
theorem sequence_ramwr (h : s.opr = 6) : s.sequence = seqRamwr s := by unfold State.sequence; rw [h]; rfl
theorem sequence_ser (h : s.opr = 8) : s.sequence = seqSer s := by unfold State.sequence; rw [h]; rfl

/-! ### What a micro-operation leaves alone -/

/-- A micro-operation writes no operand latch but `CMDB`, no parameter, no port and no `LIFE`. -/
theorem run_frame {m : MicroOp} (hf : s.fault = false) (h : m.run s = .next t) :
    t.cfg = s.cfg ∧ t.opr = s.opr ∧ t.cnt = s.cnt ∧ t.srcb = s.srcb ∧ t.srcc = s.srcc ∧ t.x0 = s.x0 ∧ t.x1 = s.x1
      ∧ t.y0 = s.y0 ∧ t.y1 = s.y1 ∧ t.cr = s.cr ∧ t.cg = s.cg ∧ t.cb = s.cb ∧ t.pk = s.pk ∧ t.life = s.life
      ∧ t.port = s.port ∧ t.busErrs = s.busErrs
      ∧ t.cmdb = (match m with | .xc b => b | _ => s.cmdb) := by
  rcases run_cases hf h with ⟨hq, rfl⟩ | ⟨dc, bytes, -, -, ⟨-, -, rfl⟩ | ⟨-, rfl⟩⟩
  · cases m with
    | xc b => exact absurd hq (by simp [MicroOp.transfer])
    | _ => exact ⟨rfl, rfl, rfl, rfl, rfl, rfl, rfl, rfl, rfl, rfl, rfl, rfl, rfl, rfl, rfl, rfl, rfl⟩
  · cases m <;> exact ⟨rfl, rfl, rfl, rfl, rfl, rfl, rfl, rfl, rfl, rfl, rfl, rfl, rfl, rfl, rfl, rfl, rfl⟩
  · cases m <;> exact ⟨rfl, rfl, rfl, rfl, rfl, rfl, rfl, rfl, rfl, rfl, rfl, rfl, rfl, rfl, rfl, rfl, rfl⟩

/-- The list in progress depends on the code, the configuration and the operand latches alone (R60, R63). -/
theorem sequence_congr (hc : t.cfg = s.cfg) (ho : t.opr = s.opr) (hn : t.cnt = s.cnt) (hb : t.srcb = s.srcb)
    (hx0 : t.x0 = s.x0) (hx1 : t.x1 = s.x1) (hy0 : t.y0 = s.y0) (hy1 : t.y1 = s.y1)
    (hcmd : s.opr = 1 → t.cmdb = s.cmdb) : t.sequence = s.sequence := by
  have hone : s.opr.toNat = 1 → s.opr = 1 := fun h => BitVec.eq_of_toNat_eq h
  simp only [State.sequence, seqCmd, seqDat, seqRst, seqInit, seqConfigure, seqWin, seqRamwr, seqSer, hc, ho, hn, hb,
    hx0, hx1, hy0, hy1]
  split
  · rename_i h
    rw [hcmd (hone h)]
  all_goals rfl

/-- The micro-operation at `SEQPC` leaves the list in progress as it is. -/
theorem sequence_run {m : MicroOp} (hf : s.fault = false) (hm : m ∈ s.sequence) (h : m.run s = .next t) :
    t.sequence = s.sequence := by
  obtain ⟨hc, ho, hn, hb, -, hx0, hx1, hy0, hy1, -, -, -, -, -, -, -, hcmd⟩ := run_frame hf h
  refine sequence_congr hc ho hn hb hx0 hx1 hy0 hy1 (fun h1 => ?_)
  have hs : s.sequence = [.xc s.cmdb] := by
    have : s.opr.toNat = 1 := by rw [h1]; rfl
    simp only [State.sequence, this, seqCmd]
  rw [hs] at hm
  rw [List.mem_singleton] at hm
  subst hm
  exact hcmd

/-- A micro-operation that does not fault steps `SEQPC`; one that faults leaves it (R37, R231). -/
theorem run_seqpc {m : MicroOp} (hf : s.fault = false) (h : m.run s = .next t) :
    (t.fault = false ∧ t.seqpc = s.seqpc + 1 ∧ t.busy = s.busy ∧ t.responses = s.responses)
      ∨ (t.fault = true ∧ t.seqpc = s.seqpc ∧ t.busy = false ∧ t.responses = s.responses ++ [.faulted]) := by
  rcases run_cases hf h with ⟨-, rfl⟩ | ⟨dc, bytes, -, -, ⟨-, -, rfl⟩ | ⟨-, rfl⟩⟩
  · left
    cases m <;> exact ⟨hf, rfl, rfl, rfl⟩
  · left
    cases m <;> exact ⟨hf, rfl, rfl, rfl⟩
  · right
    cases m <;> exact ⟨rfl, rfl, rfl, rfl⟩

end Sys2Proof.Machine
end

