-- ==== Sys2Proof/Machine/Assembler.lean ====
section
/-! DEFINITION. The assembler syntax of R102 and R103, as a printer, and the source's names as aliases. -/

namespace Sys2Proof.Machine

/-- A decimal operand. -/
def asmNumber {n : Nat} (v : BitVec n) : String := toString v.toNat

/-- A list operand, `[a, b, ...]`. -/
def asmList {n : Nat} (l : List (BitVec n)) : String := "[" ++ ", ".intercalate (l.map asmNumber) ++ "]"

/-- An instruction as one line of R102's syntax; a wire mnemonic is its own pseudo-operation (R103). -/
def asm : Instr → String
  | .cmd b => "CMD " ++ asmNumber b
  | .dat bytes => "DAT " ++ asmList bytes
  | .rst => "RST"
  | .init => "INIT"
  | .win x0 x1 y0 y1 =>
    "WIN " ++ asmNumber x0 ++ ", " ++ asmNumber x1 ++ ", " ++ asmNumber y0 ++ ", " ++ asmNumber y1
  | .ramwr => "RAMWR"
  | .pack r g b => "PACK " ++ asmNumber r ++ ", " ++ asmNumber g ++ ", " ++ asmNumber b
  | .ser colors => "SER " ++ asmList colors
  | .swreset => "SWRESET"
  | .slpout => "SLPOUT"
  | .colmod => "COLMOD"
  | .madctl => "MADCTL"
  | .porctrl => "PORCTRL"
  | .gctrl => "GCTRL"
  | .vcoms => "VCOMS"
  | .invon => "INVON"
  | .noron => "NORON"
  | .dispon => "DISPON"
  | .caset => "CASET"
  | .raset => "RASET"
  | .ramwrWire => "RAMWR.wire"

/-- The source function name that is an alias of each operation's mnemonic (R102); a wire command has none. -/
def asmAlias : Instr → Option String
  | .cmd _ => some "send_command"
  | .dat _ => some "send_bytes"
  | .rst => some "reset"
  | .init => some "initialize"
  | .win _ _ _ _ => some "set_window"
  | .ramwr => some "begin_write"
  | .pack _ _ _ => some "pack"
  | .ser _ => some "serialize"
  | .swreset => none
  | .slpout => none
  | .colmod => none
  | .madctl => none
  | .porctrl => none
  | .gctrl => none
  | .vcoms => none
  | .invon => none
  | .noron => none
  | .dispon => none
  | .caset => none
  | .raset => none
  | .ramwrWire => none

end Sys2Proof.Machine
end

