-- ==== Sys2Proof/Tests/Slice0.lean ====
section
/-! SUPPORT. Own tests: small named theorems, their expected values from spec/95_test_vectors.md, and one witness for the
hypotheses of each obligation that has any. -/

namespace Sys2Proof.Tests

open Sys2Proof.Machine

/-! ### Helpers -/

/-- The state an outcome ends in; `s` where it stopped. -/
def ended (s : State) : Host.Outcome State Fault Refusal → State
  | .next t => t
  | .fault _ => s
  | .refused _ => s

/-- The state after an instruction. -/
def ran (i : Instr) (s : State) : State := ended s (exec i s)

/-- The state after a step. -/
def stepped (s : State) : State := ended s (step s)

/-- An outcome is a next state. -/
def isNext : Host.Outcome State Fault Refusal → Bool
  | .next _ => true
  | .fault _ => false
  | .refused _ => false

/-- Construction under another configuration. -/
def under (cfg : Cfg) : State := State.constructed cfg Draws.zero []

/-- Construction with some failing transfers. -/
def failing (errs : List Nat) : State := State.constructed Cfg.reference Draws.zero errs

/-- TINYCFG of 95_test_vectors. -/
def tiny : Cfg := { Cfg.reference with w := 4, h := 3, xoff := 1, yoff := 2 }

/-- ZEROCFG of 95_test_vectors. -/
def zeroOffsets : Cfg := { Cfg.reference with xoff := 0, yoff := 0 }

/-- The picture of P2. -/
def picture : List Word :=
  [0xF800, 0x07E0, 0x001F, 0xFFFF, 0x0000, 0x11AA, 0x8410, 0x0821, 0xFFE0, 0x07FF, 0xF81F, 0xCB26]

/-- The same picture in columns (P3). -/
def pictureColumns : List Word :=
  [0xF800, 0x0000, 0xFFE0, 0x07E0, 0x11AA, 0x07FF, 0x001F, 0x8410, 0xF81F, 0xFFFF, 0x0821, 0xCB26]

/-- A panel that may be drawn on, its window not yet set. -/
def litPanel : Panel :=
  { Panel.unspecified with
    trust := .trusted
    writing := some false
    awake := some true
    colmod := some 0x55
    madctl := some 0x00
    porch := some [0x0C, 0x0C, 0x00, 0x33, 0x33]
    gctrl := some 0x35
    vcom := some 0x19
    inverted := some true
    normalMode := some true
    displayOn := some true }

/-- The tiny machine with such a panel. -/
def lit : State := { under tiny with panel := litPanel, pstate := .active }

/-- A request at the port. -/
def asked (w : ReqWord) (src : Source) : State := { State.reset with port := [.operation (.request w src)] }

/-! ### Well-formedness: an ill-formed term for each check -/

/-- A stream one longer than any 32-bit count. -/
def tooLong {α : Type} (v : α) : List α := List.replicate (2 ^ 32) v

theorem length_tooLong {α : Type} (v : α) : (tooLong v).length = 2 ^ 32 := List.length_replicate

theorem test_dat_too_long_for_its_count : (Instr.dat (tooLong 0)).wellFormed = false := by
  simp [Instr.wellFormed, length_tooLong]

theorem test_ser_too_long_for_its_count : (Instr.ser (tooLong 0)).wellFormed = false := by
  simp [Instr.wellFormed, length_tooLong]

theorem test_short_stream_is_well_formed : (Instr.dat [1, 2, 3]).wellFormed = true := by decide

theorem test_reference_configurations_valid :
    Cfg.reference.valid = true ∧ tiny.valid = true ∧ zeroOffsets.valid = true := by decide

/-- R10: no column. -/
theorem test_width_zero_is_invalid : { Cfg.reference with w := 0 }.valid = false := by decide

/-- R10: no row. -/
theorem test_height_zero_is_invalid : { Cfg.reference with h := 0 }.valid = false := by decide

/-- R10: `(W - 1) + XOFF = 65536`. -/
theorem test_column_offset_overflow_is_invalid : { Cfg.reference with xoff := 65402 }.valid = false := by decide

/-- R10: `(H - 1) + YOFF = 65536`. -/
theorem test_row_offset_overflow_is_invalid : { Cfg.reference with yoff := 65297 }.valid = false := by decide

/-- R10: the largest offset that fits. -/
theorem test_largest_offsets_are_valid : { Cfg.reference with xoff := 65401, yoff := 65296 }.valid = true := by
  decide

/-- R10: two commands with one opcode. -/
theorem test_shared_opcode_is_invalid : { Cfg.reference with opcInvon := 0x13 }.valid = false := by decide

/-! ### Decoding: a word from the spec's encoding for every constructor -/

theorem test_decode_cmd : decode Cfg.reference (.request 0x1000000000000002A .none) = .instr (.cmd 0x2A) := by
  decide

theorem test_decode_dat :
    decode Cfg.reference (.request 0x20000000000000004 (.bytes [0x00, 0x3E, 0x00, 0x3E]))
      = .instr (.dat [0x00, 0x3E, 0x00, 0x3E]) := by decide

theorem test_decode_rst : decode Cfg.reference (.request 0x30000000000000000 .none) = .instr .rst := by decide

theorem test_decode_init : decode Cfg.reference (.request 0x40000000000000000 .none) = .instr .init := by decide

/-- Format W: `x0` in bits 63 to 48 down to `y1` in bits 15 to 0. -/
theorem test_decode_win :
    decode Cfg.reference (.request 0x50001000200030004 .none) = .instr (.win 1 2 3 4) := by decide

theorem test_decode_ramwr : decode Cfg.reference (.request 0x60000000000000000 .none) = .instr .ramwr := by decide

/-- Format P: `r` in bits 23 to 16; the bits above are ignored. -/
theorem test_decode_pack :
    decode Cfg.reference (.request 0x7FFFFFFFFFF123456 .none) = .instr (.pack 0x12 0x34 0x56) := by decide

theorem test_decode_ser :
    decode Cfg.reference (.request 0x80000000000000003 (.colors [0xF800, 0x0000, 0xFFE0]))
      = .instr (.ser [0xF800, 0x0000, 0xFFE0]) := by decide

/-- The thirteen default opcodes of R101. -/
theorem test_decode_wire_rows :
    [0x01, 0x11, 0x3A, 0x36, 0xB2, 0xB7, 0xBB, 0x21, 0x13, 0x29, 0x2A, 0x2B, 0x2C].map (decodeTableWord 8)
      = [some .swreset, some .slpout, some .colmod, some .madctl, some .porctrl, some .gctrl, some .vcoms,
         some .invon, some .noron, some .dispon, some .caset, some .raset, some .ramwrWire] := by decide

/-- R99: the reserved codes. -/
theorem test_decode_reserved_codes :
    [0x00000000000000000, 0x90000000000000000, 0xA0000000000000000, 0xB0000000000000000, 0xC0000000000000000,
     0xD0000000000000000, 0xE0000000000000000, 0xF0000000000000000].map
        (fun w => decode Cfg.reference (.request w .none))
      = List.replicate 8 (.reject .reservedOp) := by decide

/-- R234: a stream shorter than its count is no request. -/
theorem test_decode_stream_mismatch :
    decode Cfg.reference (.request 0x20000000000000004 (.bytes [0x00])) = .reject .streamMismatch := by decide

theorem test_encode_win : encode Cfg.reference (.win 65535 65535 65535 65535)
    = .request 0x5FFFFFFFFFFFFFFFF .none := by decide

theorem test_encode_pack : encode Cfg.reference (.pack 0 255 0) = .request 0x7000000000000FF00 .none := by decide

/-- An opcode-table word runs as the first instruction after reset, with a stream of zeros (log 26). -/
theorem test_first_word_after_reset :
    (stepped (State.reset.withFetchWord 68 0x1000000000000002C)).trace = [.xfer 0 [0x2C]]
      ∧ (stepped (State.reset.withFetchWord 68 0x20000000000000002)).trace = [.xfer 1 [0x00, 0x00]]
      ∧ (stepped (State.reset.withFetchWord 8 0xBB)).trace = [.xfer 0 [0xBB]] := by decide

theorem test_assembler_lines :
    asm (.win 0 134 0 239) = "WIN 0, 134, 0, 239" ∧ asm (.ser [1, 2]) = "SER [1, 2]" ∧ asm (.dat []) = "DAT []"
      ∧ asmAlias .rst = some "reset" := by decide

/-! ### Each instruction -/

/-- V11. -/
theorem test_cmd :
    (ran (.cmd 0x2C) State.reset).trace = [.xfer 0 [0x2C]] ∧ (ran (.cmd 0x2C) State.reset).cmdb = 0x2C
      ∧ (ran (.cmd 0x2C) State.reset).xcnt = 1 ∧ (ran (.cmd 0x2C) State.reset).responses = [.done] := by decide

/-- V16. -/
theorem test_cmd_on_a_failing_bus :
    (ran (.cmd 0x2C) (failing [0])).trace = [.xferFail 0 [0x2C]]
      ∧ (ran (.cmd 0x2C) (failing [0])).finfo = { cause := 1, xfer := 0, dc := 0, op := 1, step := 0 }
      ∧ (ran (.cmd 0x00) (ran (.cmd 0x2C) (failing [0]))).trace = [.xferFail 0 [0x2C]] := by decide

/-- V13. -/
theorem test_dat :
    (ran (.dat [0x00, 0x34, 0x00, 0xBA]) State.reset).trace = [.xfer 1 [0x00, 0x34, 0x00, 0xBA]]
      ∧ (ran (.dat [0x00, 0x34, 0x00, 0xBA]) State.reset).dc = 1 := by decide

set_option maxRecDepth 20000 in
/-- V14: 1025 bytes. -/
theorem test_dat_above_the_ceiling :
    (ran (.dat (List.replicate 1025 0)) State.reset).fault = true
      ∧ (ran (.dat (List.replicate 1025 0)) State.reset).finfo
          = { cause := 1, xfer := 0, dc := 1, op := 2, step := 0 } := by decide

/-- V18. -/
theorem test_rst :
    (ran .rst State.reset).trace = [.res 0, .wait 20, .res 1, .xfer 0 [0x01], .wait 150]
      ∧ (ran .rst State.reset).pstate = .reset ∧ (ran .rst State.reset).res = 1
      ∧ (ran .rst State.reset).xcnt = 1 := by decide

/-- V19. -/
theorem test_rst_on_a_failing_bus :
    (ran .rst (failing [0])).trace = [.res 0, .wait 20, .res 1, .xferFail 0 [0x01]]
      ∧ (ran .rst (failing [0])).finfo.step = 3 ∧ (ran .rst (failing [0])).pstate = .unpowered
      ∧ (ran .rst (failing [0])).res = 1 := by decide

/-- V20 and P1. -/
theorem test_init :
    (ran .init State.reset).trace =
        [.res 0, .wait 20, .res 1, .xfer 0 [0x01], .wait 150, .xfer 0 [0x11], .wait 120, .xfer 0 [0x3A],
         .xfer 1 [0x55], .xfer 0 [0x36], .xfer 1 [0x00], .xfer 0 [0xB2], .xfer 1 [0x0C, 0x0C, 0x00, 0x33, 0x33],
         .xfer 0 [0xB7], .xfer 1 [0x35], .xfer 0 [0xBB], .xfer 1 [0x19], .wait 10, .xfer 0 [0x21],
         .xfer 0 [0x13], .xfer 0 [0x29], .wait 150, .bl 255]
      ∧ (ran .init State.reset).pstate = .active ∧ (ran .init State.reset).seqpc = 27
      ∧ (ran .init State.reset).bld = some 255 := by decide

/-- P4. -/
theorem test_init_on_a_failing_bus :
    (ran .init (failing [4])).finfo = { cause := 1, xfer := 4, dc := 0, op := 4, step := 11 }
      ∧ (ran .init (failing [4])).seqpc = 11 ∧ (ran .init (failing [4])).pstate = .sleepOut
      ∧ (ran .init (failing [4])).xcnt = 5 ∧ (ran .init (failing [4])).bld = none := by decide

/-- V22, REFCFG: the full panel, and a reversed x sent as given (R157). -/
theorem test_win :
    (ran (.win 0 134 0 239) State.reset).trace
        = [.xfer 0 [0x2A], .xfer 1 [0x00, 0x34, 0x00, 0xBA], .xfer 0 [0x2B], .xfer 1 [0x00, 0x28, 0x01, 0x17]]
      ∧ (ran (.win 100 10 0 0) State.reset).trace
        = [.xfer 0 [0x2A], .xfer 1 [0x00, 0x98, 0x00, 0x3E], .xfer 0 [0x2B], .xfer 1 [0x00, 0x28, 0x00, 0x28]] := by
  decide

/-- V3 and V22: at the bound and far above it. -/
theorem test_win_clamps :
    (ran (.win 135 134 240 239) State.reset).trace = (ran (.win 200 500 300 65535) State.reset).trace
      ∧ (ran (.win 200 500 300 65535) (under zeroOffsets)).trace
        = [.xfer 0 [0x2A], .xfer 1 [0x00, 0x86, 0x00, 0x86], .xfer 0 [0x2B], .xfer 1 [0x00, 0xEF, 0x00, 0xEF]] := by
  decide

/-- V24. -/
theorem test_ramwr :
    (ran .ramwr State.reset).trace = [.xfer 0 [0x2C]] ∧ (ran .ramwr State.reset).opr = 6 := by decide

/-- V10. -/
theorem test_pack :
    [packColor 255 0 0, packColor 0 255 0, packColor 0 0 255, packColor 7 3 7, packColor 8 4 8,
     packColor 0x12 0x34 0x56, packColor 247 251 247, packColor 200 100 50]
      = [0xF800, 0x07E0, 0x001F, 0x0000, 0x0821, 0x11AA, 0xF7DE, 0xCB26] := by decide

/-- V10, R97: no event, response DONE(PK). -/
theorem test_pack_touches_nothing_else :
    (ran (.pack 8 4 8) State.reset).trace = [] ∧ (ran (.pack 8 4 8) State.reset).pk = 0x0821
      ∧ (ran (.pack 8 4 8) State.reset).responses = [.donePacked 0x0821] := by decide

/-- V25. -/
theorem test_ser :
    (ran (.ser [0xF800, 0x07E0, 0x001F]) State.reset).trace = [.xfer 1 [0xF8, 0x00, 0x07, 0xE0, 0x00, 0x1F]]
      ∧ (ran (.ser []) State.reset).trace = [] ∧ (ran (.ser [0x1234]) State.reset).slen = 0
      ∧ (ran (.ser [0x1234]) State.reset).scr = [(0, 0x12), (1, 0x34)] := by decide

/-- R34, R44: a staged byte that is 0 is the canonical form's unlisted byte, and a drawn byte is read back. -/
theorem test_scratch_bytes :
    (ran (.ser [0x1200]) State.reset).scr = [(0, 0x12)]
      ∧ Scratch.read (State.constructed Cfg.reference { Draws.zero with scr := [7, 0, 9] } []).scr 2 = 9
      ∧ Scratch.read State.reset.scr 1023 = 0 := by decide

/-- V26. -/
theorem test_ser_chunks :
    [0, 1, 511, 512, 513, 1023, 1024, 1025, 240, 32400].map chunkCount = [0, 1, 1, 1, 2, 2, 2, 3, 1, 64]
      ∧ chunkSize 513 1 = 1 ∧ chunkSize 32400 63 = 144 := by decide

/-- R103: the thirteen mnemonics send their opcode parameter. -/
theorem test_wire_mnemonics :
    WireCommand.all.map (fun c => (ran c.instr State.reset).trace)
      = [[.xfer 0 [0x01]], [.xfer 0 [0x11]], [.xfer 0 [0x3A]], [.xfer 0 [0x36]], [.xfer 0 [0xB2]],
         [.xfer 0 [0xB7]], [.xfer 0 [0xBB]], [.xfer 0 [0x21]], [.xfer 0 [0x13]], [.xfer 0 [0x29]],
         [.xfer 0 [0x2A]], [.xfer 0 [0x2B]], [.xfer 0 [0x2C]]] := by decide

/-- R66: bit 7 first. -/
theorem test_serial_order :
    serialBits [0x2C] = [false, false, true, false, true, true, false, false] := by decide

/-- R45: `BUSY = 0`, `FAULT = 0`, `PSTATE = Active`. -/
theorem test_status : (ran .init State.reset).status = 0x10 ∧ State.reset.status = 0 := by decide

/-- R45, V20: `STATUS` sampled through `INIT`: before it, at its acceptance, after step 5, after step 8, at its end. -/
theorem test_status_while_busy :
    [0, 1, 7, 10, 22, 28, 29].map (fun n => sampleStatus n (asked 0x40000000000000000 .none))
      = [some 0x00, some 0x01, some 0x05, some 0x09, some 0x0D, some 0x11, some 0x10] := by decide

/-- R205: a drawn window is there at construction, and after INIT's reset the window is unknown whatever was drawn. -/
theorem test_panel_draw :
    (State.constructed Cfg.reference { Draws.zero with panel := { PanelDraw.zero with cols := (3, 9) } } []).panel.cols
        = some (3, 9)
      ∧ (ran .init (State.constructed Cfg.reference
          { Draws.zero with panel := { PanelDraw.zero with cols := (3, 9) } } [])).panel.cols = none := by decide

/-- P6: the reserved code 9 is answered REFUSED. -/
theorem test_reserved_code : (stepped (asked 0x90000000000000000 .none)).responses = [.refused] := by decide

/-- R263, P1: `INIT` makes the panel drawable; R272: before it nothing is known. -/
theorem test_init_lights_the_panel :
    (ran .init (under tiny)).panel.drawable tiny = true ∧ (under tiny).panel.drawable tiny = false := by decide

set_option maxRecDepth 20000 in
/-- U7: the pixel of a lone high byte has no value, its neighbour keeps its own. -/
theorem test_half_pixel :
    (ended lit (runProgram (flushProgram tiny picture ++ [.ramwr, .dat [0xAA]]) lit)).panel.color 1 2 = none
      ∧ (ended lit (runProgram (flushProgram tiny picture ++ [.ramwr, .dat [0xAA]]) lit)).panel.color 2 2
        = some 0x07E0 := by decide

set_option maxRecDepth 20000 in
/-- R270: INIT after a hand-sent VCOMS does not bring claims back. -/
theorem test_init_after_hand_sent_vcoms :
    (ran .init (ran (.cmd 0xBB) lit)).panel.trust = .refused ∧ (ran .init (ran (.cmd 0xBB) lit)).pstate = .active := by
  decide

set_option maxRecDepth 20000 in
/-- P2: the picture, and the pointer one row past the window. -/
theorem test_flush_paints :
    (ended lit (runProgram (flushProgram tiny picture) lit)).panel.color 1 2 = some 0xF800
      ∧ (ended lit (runProgram (flushProgram tiny picture) lit)).panel.color 2 3 = some 0x11AA
      ∧ (ended lit (runProgram (flushProgram tiny picture) lit)).panel.color 4 4 = some 0xCB26
      ∧ (ended lit (runProgram (flushProgram tiny picture) lit)).panel.ptr = some (1, 5) := by decide

set_option maxRecDepth 20000 in
/-- P3: the same picture by columns. -/
theorem test_blit_paints_the_same :
    (ended lit (runProgram (blitProgram tiny pictureColumns) lit)).panel.mem
      = (ended lit (runProgram (flushProgram tiny picture) lit)).panel.mem := by decide

/-! ### Witnesses: a state and operands that meet the hypotheses of each obligation -/

/-- A TPC in the middle of its RST. -/
def midway : State := { State.reset with busy := true, opr := 3, seqpc := 2 }

/-- A TPC at the end of its RST's list. -/
def atTheEnd : State := { State.reset with busy := true, opr := 3, seqpc := 6 }

/-- A TPC between the `STAGE` and the `XS` of a SER of one color. -/
def staged : State :=
  { State.reset with busy := true, opr := 8, seqpc := 1, cnt := 1, srcc := [0x1234], slen := 2
                     scr := [(0, 0x12), (1, 0x34)] }

theorem answers {o : Host.Outcome State Fault Refusal} (h : isNext o = true) : ∃ t, o = .next t := by
  cases o with
  | next t => exact ⟨t, rfl⟩
  | fault r => exact absurd h Bool.false_ne_true
  | refused r => exact absurd h Bool.false_ne_true

theorem witness_DecodeOfEncodeGivesBack :
    Cfg.reference.valid = true ∧ (Instr.ser [0xF800]).wellFormed = true := by decide

/-- Two words that differ in an ignored bit only, for each clause. -/
theorem witness_DecoderReadsOnlyNamedBits :
    (ReqWord.op 0x1000000000000002A = 1 ∧ ReqWord.op 0x1800000000000002A = 1
        ∧ BitVec.extractLsb' 0 8 (0x1000000000000002A : ReqWord)
          = BitVec.extractLsb' 0 8 (0x1800000000000002A : ReqWord))
      ∧ (ReqWord.op 0x20000000000000002 = 2 ∧ ReqWord.op 0x20000000100000002 = 2
        ∧ BitVec.extractLsb' 0 32 (0x20000000000000002 : ReqWord)
          = BitVec.extractLsb' 0 32 (0x20000000100000002 : ReqWord))
      ∧ ReqWord.op 0x80000000100000002 = 8
      ∧ (ReqWord.op 0x30000000000000000 = 3 ∧ ReqWord.op 0x30000000000000001 = 3)
      ∧ ReqWord.op 0x40000000000000001 = 4 ∧ ReqWord.op 0x60000000000000001 = 6
      ∧ (ReqWord.op 0x70000000000123456 = 7 ∧ ReqWord.op 0x70000000001123456 = 7
        ∧ BitVec.extractLsb' 0 24 (0x70000000000123456 : ReqWord)
          = BitVec.extractLsb' 0 24 (0x70000000001123456 : ReqWord)) := by decide

theorem witness_StepRunsDecodedInstruction :
    (asked 0x40000000000000000 .none).ready = true
      ∧ (asked 0x40000000000000000 .none).port = .operation (.request 0x40000000000000000 .none) :: []
      ∧ decode (asked 0x40000000000000000 .none).cfg (.request 0x40000000000000000 .none) = .instr .init := by
  decide

/-- The codes 0x0, 0x9 and 0xF, where the clauses meet. -/
theorem witness_ReservedCodeIsRefused :
    (asked 0x00000000000000000 .none).ready = true ∧ ReqWord.op 0x00000000000000000 = 0
      ∧ 9 ≤ (ReqWord.op 0x90000000000000000).toNat ∧ 9 ≤ (ReqWord.op 0xF0000000000000000).toNat
      ∧ ¬ 9 ≤ (ReqWord.op 0x80000000000000000).toNat := by decide

theorem witness_IdleWaitsAndTeardownEnds :
    (State.reset.ready = true ∧ State.reset.port = [])
      ∧ ({ State.reset with port := [.teardown] }.ready = true)
      ∧ (midway.busy = true ∧ isNext (step midway) = true) := by decide

theorem witness_HaltedChangesNothing :
    { State.reset with fault := true }.halted = true ∧ { State.reset with life := .tornDown }.halted = true := by
  decide

theorem witness_BusyRunsOneMicroOperation :
    (midway.halted = false ∧ midway.busy = true ∧ midway.sequence[midway.seqpc]? = some .resh)
      ∧ (atTheEnd.halted = false ∧ atTheEnd.busy = true ∧ atTheEnd.seqpc = atTheEnd.sequence.length) := by decide

theorem witness_MicroOperationsWithoutTransfer : midway.fault = false := by decide

theorem length_ceiling (n : Nat) (b : Byte) : (List.replicate n b).length = n := List.length_replicate

/-- A transfer of 1024 bytes completes, one of 1025 does not, and one that the oracle fails does not. -/
theorem witness_TransferCompletesOrFaults :
    ([0x2C] : List Byte) ≠ [] ∧ (List.replicate 1024 (0 : Byte)).length ≤ 1024
      ∧ 1024 < (List.replicate 1025 (0 : Byte)).length
      ∧ State.reset.busErr State.reset.xcnt = false ∧ (failing [0]).busErr (failing [0]).xcnt = true := by
  refine ⟨by decide, ?_, ?_, by decide, by decide⟩
  · rw [length_ceiling]
  · rw [length_ceiling]; decide

theorem witness_CmdSendsOneByte : State.reset.ready = true ∧ State.reset.busErr State.reset.xcnt = false := by decide

theorem witness_WireMnemonicsSendTheirOpcode :
    State.reset.ready = true ∧ State.reset.busErr State.reset.xcnt = false ∧ WireCommand.swreset.instr = .swreset := by
  decide

theorem witness_RamwrSendsMemoryWrite :
    State.reset.ready = true ∧ State.reset.busErr State.reset.xcnt = false := by decide

/-- One byte, and 1024. -/
theorem witness_DatSendsOneTransfer :
    ([0xAB] : List Byte) ≠ [] ∧ ([0xAB] : List Byte).length ≤ 1024
      ∧ (List.replicate 1024 (0 : Byte)).length ≤ 1024
      ∧ State.reset.ready = true ∧ State.reset.busErr State.reset.xcnt = false := by
  refine ⟨by decide, by decide, ?_, by decide, by decide⟩
  rw [length_ceiling]

theorem witness_DatOfNothingSendsNothing : State.reset.ready = true := by decide

theorem witness_DatTooLongFaults :
    1024 < (List.replicate 1025 (0 : Byte)).length ∧ (List.replicate 1025 (0 : Byte)).length < 2 ^ 32
      ∧ State.reset.ready = true := by
  refine ⟨?_, ?_, by decide⟩ <;> rw [length_ceiling] <;> decide

theorem witness_RstRunsItsSixSteps :
    State.reset.ready = true ∧ State.reset.busErr State.reset.xcnt = false := by decide

/-- `RST`, and `INIT` at its first, second and last transfer. -/
theorem witness_RstAndInitFaultPartWay :
    ((failing [0]).ready = true ∧ (failing [0]).busErr (failing [0]).xcnt = true)
      ∧ (initTransfers[0]? = some (3, 3, none) ∧ (failing [0]).busGoodFor 0
        ∧ (failing [0]).busErr ((failing [0]).xcnt + 0) = true)
      ∧ (initTransfers[1]? = some (6, 5, some .reset) ∧ (failing [1]).busGoodFor 1
        ∧ (failing [1]).busErr ((failing [1]).xcnt + 1) = true)
      ∧ ((failing [14]).ready = true ∧ initTransfers[14]? = some (23, 20, some .configured)
        ∧ (failing [14]).busGoodFor 14 ∧ (failing [14]).busErr ((failing [14]).xcnt + 14) = true) := by decide

theorem witness_InitRunsItsSequence : State.reset.ready = true ∧ State.reset.busGoodFor 15 := by decide

/-- Every coordinate inside its bound, at it, and above it. -/
theorem witness_WinSendsClampedWindow :
    State.reset.ready = true ∧ State.reset.busGoodFor 4
      ∧ (52 + 134 : Word) = BitVec.ofNat 16 (min (134 : Word).toNat (State.reset.cfg.w - 1).toNat)
          + State.reset.cfg.xoff
      ∧ (186 : Word) = BitVec.ofNat 16 (min (135 : Word).toNat (State.reset.cfg.w - 1).toNat)
          + State.reset.cfg.xoff
      ∧ (279 : Word) = BitVec.ofNat 16 (min (65535 : Word).toNat (State.reset.cfg.h - 1).toNat)
          + State.reset.cfg.yoff := by decide

theorem witness_PackWritesItsLatches : State.reset.ready = true
    ∧ (0x11AA : Word) = ((((0x12 : Byte) >>> 3).setWidth 16 <<< 11) ||| (((0x34 : Byte) >>> 2).setWidth 16 <<< 5)
        ||| ((0x56 : Byte) >>> 3).setWidth 16) := by decide

/-- No color (no chunk), one, and 513 (two chunks). -/
theorem witness_SerSendsItsChunks :
    ([] : List Word).length < 2 ^ 32 ∧ 0 = (([] : List Word).length + 511) / 512
      ∧ 1 = (([0x1234] : List Word).length + 511) / 512
      ∧ (List.replicate 513 (0 : Word)).length < 2 ^ 32
      ∧ 2 = ((List.replicate 513 (0 : Word)).length + 511) / 512
      ∧ State.reset.ready = true ∧ State.reset.busGoodFor 2
      ∧ ∃ chunk : Nat → List Byte, ∀ k, chunk k = ((([0x1234] : List Word).drop (512 * k)).take 512).flatMap
          (fun c => [c.extractLsb' 8 8, c.extractLsb' 0 8]) := by
  refine ⟨by decide, by decide, by decide, ?_, ?_, by decide, by decide, ⟨_, fun _ => rfl⟩⟩ <;>
    rw [List.length_replicate] <;> decide

/-- The first chunk fails; the second of two does. -/
theorem witness_SerFaultsAtFirstFailingChunk :
    (([0x1234] : List Word).length < 2 ^ 32 ∧ 512 * 0 < ([0x1234] : List Word).length
        ∧ (failing [0]).ready = true ∧ (failing [0]).busGoodFor 0
        ∧ (failing [0]).busErr ((failing [0]).xcnt + 0) = true)
      ∧ (List.replicate 513 (0 : Word)).length < 2 ^ 32 ∧ 512 * 1 < (List.replicate 513 (0 : Word)).length
      ∧ (failing [1]).ready = true ∧ (failing [1]).busGoodFor 1
      ∧ (failing [1]).busErr ((failing [1]).xcnt + 1) = true := by
  refine ⟨by decide, ?_, ?_, by decide, by decide, by decide⟩
  · rw [List.length_replicate]; decide
  · rw [List.length_replicate]; decide

theorem witness_FaultIsRecordedPrecisely :
    (failing [4]).fault = false ∧ (∃ t, exec .init (failing [4]) = .next t)
      ∧ (ran .init (failing [4])).fault = true :=
  ⟨by decide, answers (by decide), by decide⟩

theorem witness_GoodBusNeverFaults :
    (∀ k, State.reset.xcnt ≤ k → State.reset.busErr k = false)
      ∧ (∀ bytes, Instr.dat [0xAB] = .dat bytes → bytes.length ≤ 1024)
      ∧ ∃ t, exec (.dat [0xAB]) State.reset = .next t :=
  ⟨fun _ _ => rfl, fun _ h => by cases h; decide, answers (by decide)⟩

theorem witness_OneResponsePerAcceptedRequest :
    State.reset.ready = true ∧ (failing [0]).ready = true
      ∧ (∃ t, exec (.pack 1 2 3) State.reset = .next t) ∧ (∃ t, exec (.cmd 0x2C) (failing [0]) = .next t)
      ∧ (ran (.cmd 0x2C) (failing [0])).fault = true :=
  ⟨by decide, by decide, answers (by decide), answers (by decide), by decide⟩

/-- At the bound and one below it. -/
theorem witness_WindowClampingLaw :
    State.reset.cfg.valid = true ∧ State.reset.cfg.w.toNat ≤ (135 : Word).toNat
      ∧ ¬ State.reset.cfg.w.toNat ≤ (134 : Word).toNat ∧ State.reset.cfg.h.toNat ≤ (240 : Word).toNat
      ∧ ¬ State.reset.cfg.h.toNat ≤ (239 : Word).toNat := by decide

/-- The reference configuration and the largest valid offsets. -/
theorem witness_TranslationStaysOnPanel :
    Cfg.reference.valid = true ∧ { Cfg.reference with xoff := 65401, yoff := 65296 }.valid = true := by decide

/-- The full chunk and the last chunk of 513 colors. -/
theorem witness_ChunkSizesOfSer :
    (0 < chunkCount 513 ∧ 0 + 1 < chunkCount 513) ∧ (1 < chunkCount 513 ∧ 1 + 1 = chunkCount 513) := by decide

theorem witness_ChunkingLaw :
    (([0xF800] : List Word) ++ [0x07E0, 0x001F]).length < 2 ^ 32 ∧ State.reset.ready = true
      ∧ State.reset.busGoodFor
          (chunkCount ([0xF800] : List Word).length + chunkCount ([0x07E0, 0x001F] : List Word).length) := by decide

theorem witness_FrameOfCommands :
    (∃ c : WireCommand, Instr.caset = c.instr) ∧ (∃ t, exec .caset State.reset = .next t)
      ∧ (∃ t, exec .ramwr State.reset = .next t) ∧ ∃ t, exec (.cmd 0x2C) (failing [0]) = .next t :=
  ⟨⟨.caset, rfl⟩, answers (by decide), answers (by decide), answers (by decide)⟩

theorem witness_FrameOfDat : ∃ t, exec (.dat [0xAB]) State.reset = .next t := answers (by decide)

theorem witness_FrameOfRstAndInit :
    (∃ t, exec .rst State.reset = .next t) ∧ ∃ t, exec .init State.reset = .next t :=
  ⟨answers (by decide), answers (by decide)⟩

theorem witness_FrameOfWin : ∃ t, exec (.win 0 134 0 239) State.reset = .next t := answers (by decide)

theorem witness_FrameOfPack : ∃ t, exec (.pack 8 4 8) State.reset = .next t := answers (by decide)

/-- The first address above the bytes one color stores to. -/
theorem witness_FrameOfSer :
    ([0x1234] : List Word).length < 2 ^ 32 ∧ (∃ t, exec (.ser [0x1234]) State.reset = .next t)
      ∧ 2 * min ([0x1234] : List Word).length 512 ≤ 2 :=
  ⟨by decide, answers (by decide), by decide⟩

theorem witness_StepKeepsConfigurationAndHistory : ∃ t, step staged = .next t := answers (by decide)

theorem witness_CommandSetIsClosed :
    (∃ x0 x1 y0 y1, Instr.win 0 134 0 239 = .win x0 x1 y0 y1)
      ∧ (∃ t, exec (.win 0 134 0 239) State.reset = .next t) ∧ ∃ t, exec .rst (failing [0]) = .next t :=
  ⟨⟨0, 134, 0, 239, rfl⟩, answers (by decide), answers (by decide)⟩

theorem witness_OperationIsItsMicroSteps :
    State.reset.ready = true ∧ (asked 0x40000000000000000 .none).ready = true
      ∧ fetch (asked 0x40000000000000000 .none) = .runs .init ∧ ∀ r g b, Instr.init ≠ .pack r g b :=
  ⟨by decide, by decide, by decide, fun _ _ _ h => by cases h⟩

theorem witness_StepKeepsMemories : staged.ScratchInv ∧ staged.FrameInv ∧ ∃ t, step staged = .next t :=
  ⟨by decide, by decide, answers (by decide)⟩

theorem witness_StepKeepsPinsAndHalt : staged.PinInv ∧ staged.HaltInv ∧ ∃ t, step staged = .next t :=
  ⟨by decide, by decide, answers (by decide)⟩

theorem witness_StepKeepsTransferCount : staged.TraceInv ∧ ∃ t, step staged = .next t :=
  ⟨⟨by decide, fun _ _ h => by cases h⟩, answers (by decide)⟩

theorem witness_StepKeepsFaultRecord : staged.FaultInv ∧ ∃ t, step staged = .next t :=
  ⟨⟨fun _ _ _ h => (by cases h), fun h => absurd h (by decide)⟩, answers (by decide)⟩

theorem witness_StepKeepsStaging : staged.StagingInv ∧ State.reset.StagingInv ∧ ∃ t, step staged = .next t :=
  ⟨by decide, by decide, answers (by decide)⟩

theorem witness_StepKeepsPanelOfTrace :
    State.reset.PanelInv PanelDraw.zero ∧ staged.PanelInv PanelDraw.zero ∧ ∃ t, step staged = .next t :=
  ⟨by decide, by decide, answers (by decide)⟩

theorem witness_StagedStepNeverStops : staged.StagingInv := by decide

theorem witness_ConstructionMeetsInvariants : State.reset = State.constructed Cfg.reference Draws.zero [] := rfl

theorem witness_ConstructionValues :
    Cfg.reference.valid = true ∧ { Cfg.reference with w := 0 }.valid = false
      ∧ ([(5, 0xF800), (6, 0x001F)] : List (Nat × Word)).Pairwise (fun c e => c.1 < e.1) := by decide

theorem witness_InitMakesPanelDrawable :
    State.reset.ready = true ∧ State.reset.busGoodFor 15 ∧ State.reset.cfg.valid = true
      ∧ State.reset.panel.trust ≠ .refused ∧ State.reset.panel.due = 0 := by decide

theorem witness_WinSetsPanelWindow :
    lit.ready = true ∧ lit.busGoodFor 4 ∧ lit.cfg.valid = true ∧ lit.panel.drawable lit.cfg = true
      ∧ lit.panel.half = none := by decide

/-- The panel with the full window of the tiny machine. -/
def windowed : State := { lit with panel := { litPanel with cols := some (1, 4), rows := some (2, 4) } }

theorem witness_RamwrStartsAtWindowOrigin :
    windowed.ready = true ∧ windowed.busErr windowed.xcnt = false ∧ windowed.cfg.valid = true
      ∧ windowed.panel.drawable windowed.cfg = true ∧ windowed.panel.cols = some (1, 4)
      ∧ windowed.panel.rows = some (2, 4) := by decide

/-- In the middle of a row, at its end, and at the last pixel of the window. -/
theorem witness_PixelPairStoresAndAdvances :
    [(1, 2), (4, 2), (4, 4)].all (fun at_ : Nat × Nat =>
      let p : Panel := { windowed.panel with writing := some true, ptr := some at_ }
      decide (p.trust ≠ .refused) && decide (p.writing = some true) && decide (p.half = none)
        && decide (p.cols = some (1, 4)) && decide (p.rows = some (2, 4)) && decide (p.ptr = some at_)
        && Panel.windowOpen tiny (1, 4) (2, 4) at_.2) = true := by decide

theorem witness_FlushPaintsPanel :
    lit.ready = true ∧ lit.cfg.valid = true ∧ picture.length = lit.cfg.w.toNat * lit.cfg.h.toNat
      ∧ lit.busGoodFor (5 + chunkCount picture.length) ∧ lit.panel.drawable lit.cfg = true := by decide

theorem witness_BlitPaintsPanel :
    lit.ready = true ∧ lit.cfg.valid = true ∧ pictureColumns.length = lit.cfg.w.toNat * lit.cfg.h.toNat
      ∧ lit.busGoodFor (lit.cfg.w.toNat * (5 + chunkCount lit.cfg.h.toNat)) ∧ lit.panel.drawable lit.cfg = true := by
  decide

theorem witness_HandSentDelayCommandEndsClaims :
    WireCommand.slpout ∈ [WireCommand.swreset, .slpout, .vcoms, .dispon] ∧ lit.cfg.valid = true
      ∧ lit.ready = true ∧ lit.busErr lit.xcnt = false
      ∧ (∃ t, exec (.cmd (lit.cfg.opcode .slpout)) lit = .next t)
      ∧ (∃ u, exec (.cmd 0x29) (ran (.cmd (lit.cfg.opcode .slpout)) lit) = .next u)
      ∧ (∃ u, exec .init (ran (.cmd (lit.cfg.opcode .vcoms)) lit) = .next u)
      ∧ ∃ u, runProgram [.init, .ramwr] (ran (.cmd (lit.cfg.opcode .vcoms)) lit) = .next u :=
  ⟨by decide, by decide, by decide, by decide, answers (by decide), answers (by decide), answers (by decide),
    answers (by decide)⟩

theorem witness_FailedTransferEndsClaims :
    (failing [0]).fault = false ∧ (∃ t, exec .ramwr (failing [0]) = .next t)
      ∧ (ran .ramwr (failing [0])).fault = true :=
  ⟨by decide, answers (by decide), by decide⟩

end Sys2Proof.Tests
end

section
/-! PROOFS. The scope of the model: the transfer count (O45), the window translation (O31) and construction (O51). -/

namespace Sys2Proof.Machine

variable {s t : State}

/-! ### What every move keeps, a step keeps -/

/-- The induction over one step, packaged for a predicate that holds between operations and within them alike. -/
theorem step_keeps {P : State → Prop} (hs : P s) (h : step s = .next t)
    (hconsume : ∀ u, P u → P u.consume) (htear : ∀ u, P u → P u.tearDown)
    (hrespond : ∀ u r, P u → P (u.respond r)) (hcomplete : ∀ u, P u → P u.complete)
    (haccept : ∀ i u, P u → P (accepted i u))
    (hrun : ∀ m u v, P u → u.fault = false → MicroOp.run m u = .next v → P v) : P t := by
  rcases step_cases h with rfl | ⟨-, -, -, rfl⟩ | ⟨hh, -, m, -, hm⟩ | ⟨-, rfl⟩ | ⟨-, i, -, hi⟩ | ⟨-, rfl⟩
  · exact hs
  · exact hcomplete s hs
  · exact hrun m s t hs (halted_eq_false_iff.mp hh).1 hm
  · exact htear _ (hconsume s hs)
  · have hc := hconsume s hs
    exact exec_keeps (Q := P) hc hi (fun r g b => haccept (.pack r g b) _ hc) (fun _ _ => haccept i _ hc) hrun
      (fun u hu _ => hcomplete u hu) (fun _ hu _ => hu)
  · exact hrespond _ _ (hconsume s hs)

/-! ### The trace and the transfer count of each move -/

@[simp] theorem accepted_xcnt (i : Instr) (s : State) : (accepted i s).xcnt = s.xcnt := by cases i <;> rfl
@[simp] theorem accepted_trace (i : Instr) (s : State) : (accepted i s).trace = s.trace := by cases i <;> rfl

@[simp] theorem latched_xcnt (m : MicroOp) (s : State) : (m.latched s).xcnt = s.xcnt := by cases m <;> rfl
@[simp] theorem latched_trace (m : MicroOp) (s : State) : (m.latched s).trace = s.trace := by cases m <;> rfl

@[simp] theorem afterTransfer_xcnt (m : MicroOp) (s : State) : (m.afterTransfer s).xcnt = s.xcnt := by
  cases m <;> rfl
@[simp] theorem afterTransfer_trace (m : MicroOp) (s : State) : (m.afterTransfer s).trace = s.trace := by
  cases m <;> rfl

@[simp] theorem quiet_xcnt (m : MicroOp) (s : State) : (m.quiet s).xcnt = s.xcnt := by cases m <;> rfl

/-- A micro-operation that performs no transfer adds at most one event, of another kind (R13). -/
theorem quiet_trace (m : MicroOp) (s : State) :
    (m.quiet s).trace = s.trace ∨ ∃ e, (m.quiet s).trace = s.trace ++ [e] ∧ e.isTransfer = false := by
  cases m with
  | resl => exact .inr ⟨.res 0, rfl, rfl⟩
  | resh => exact .inr ⟨.res 1, rfl, rfl⟩
  | wait ms => exact .inr ⟨.wait ms, rfl, rfl⟩
  | blset duty => exact .inr ⟨.bl duty, rfl, rfl⟩
  | _ => exact .inl rfl

/-! ### O45: `XCNT` counts the transfers in `TRACE` -/

/-- The invariant is about `XCNT` and `TRACE` alone. -/
theorem traceInv_congr (hx : t.xcnt = s.xcnt) (ht : t.trace = s.trace) (hs : s.TraceInv) : t.TraceInv := by
  unfold State.TraceInv
  rwa [hx, ht]

/-- One more event keeps the invariant if it is counted exactly when it is a transfer, and has an allowed size if it is
a completed one. -/
theorem traceInv_append {e : Event} (hx : t.xcnt = s.xcnt + if e.isTransfer then 1 else 0)
    (ht : t.trace = s.trace ++ [e])
    (hsize : ∀ dc bytes, e = .xfer dc bytes → bytes ≠ [] ∧ bytes.length ≤ Config.maxXferBytes)
    (hs : s.TraceInv) : t.TraceInv := by
  obtain ⟨hcount, hsizes⟩ := hs
  refine ⟨?_, fun dc bytes hmem => ?_⟩
  · rw [hx, ht, hcount, List.countP_append, List.countP_singleton]
  · rw [ht, List.mem_append, List.mem_singleton] at hmem
    rcases hmem with hmem | he
    · exact hsizes dc bytes hmem
    · exact hsize dc bytes he.symm

/-- A micro-operation adds a transfer and counts it, or adds none and counts none. -/
theorem run_keeps_traceInv {m : MicroOp} (hs : s.TraceInv) (hf : s.fault = false) (h : m.run s = .next t) :
    t.TraceInv := by
  rcases run_cases hf h with ⟨-, rfl⟩ | ⟨dc, bytes, -, hne, ⟨hlen, -, rfl⟩ | ⟨-, rfl⟩⟩
  · rcases quiet_trace m s with ht | ⟨e, ht, he⟩
    · exact traceInv_congr (quiet_xcnt m s) ht hs
    · refine traceInv_append (e := e) (by simp [he]) ht (fun dc bytes hx => ?_) hs
      rw [hx] at he
      exact absurd he (by simp [Event.isTransfer])
  · refine traceInv_append (e := .xfer dc bytes) (by simp [Event.isTransfer]) (by simp) (fun dc' bytes' he => ?_) hs
    obtain ⟨-, rfl⟩ := Event.xfer.inj he
    exact ⟨hne, hlen⟩
  · exact traceInv_append (e := .xferFail dc bytes) (by simp [Event.isTransfer]) (by simp)
      (fun _ _ he => nomatch he) hs

/-- Settles O45: of the moves a step is made of, only a micro-operation touches `XCNT` or `TRACE`, and
`run_keeps_traceInv` says it keeps the count. -/
theorem stepKeepsTransferCount : Obligations.StepKeepsTransferCount := by
  intro s t hs h
  exact step_keeps (P := State.TraceInv) hs h (fun _ hu => hu) (fun _ hu => hu) (fun _ _ hu => hu) (fun _ hu => hu)
    (fun i u => traceInv_congr (accepted_xcnt i u) (accepted_trace i u)) (fun _ _ _ => run_keeps_traceInv)

/-! ### O31: the window translation -/

/-- R155: below a bound of at least 1 the clamp is the minimum of numbers; `bound - 1` does not wrap. -/
theorem toNat_clamp {bound : Word} (c : Word) (h : 1 ≤ bound.toNat) :
    (clamp c bound).toNat = min c.toNat (bound.toNat - 1) := by
  have hpred : (bound - 1).toNat = bound.toNat - 1 := BitVec.toNat_sub_of_le h
  unfold clamp minWord
  split <;> omega

/-- R155, R156: on a valid axis (R10) the offset does not wrap either. -/
theorem toNat_controllerCoord {bound off : Word} (c : Word) (hb : 1 ≤ bound.toNat)
    (hoff : bound.toNat - 1 + off.toNat ≤ 65535) :
    (controllerCoord c bound off).toNat = min c.toNat (bound.toNat - 1) + off.toNat := by
  rw [controllerCoord, BitVec.toNat_add_of_lt (by rw [toNat_clamp c hb]; omega), toNat_clamp c hb]

/-- Settles O31: both axes of a valid configuration are valid, so neither the clamp nor the offset wraps. -/
theorem translationStaysOnPanel : Obligations.TranslationStaysOnPanel := by
  intro cfg c hv
  obtain ⟨hw, hx, hh, hy, -⟩ := Cfg.valid_facts hv
  have hX : (translateX cfg c).toNat = _ := toNat_controllerCoord c hw hx
  have hY : (translateY cfg c).toNat = _ := toNat_controllerCoord c hh hy
  exact ⟨hX, hY, by omega, by omega⟩

/-! ### O51: construction -/

theorem construct_of_valid {cfg : Cfg} (h : cfg.valid = true) (d : Draws) (errs : List Nat) :
    State.construct cfg d errs = .next (State.constructed cfg d errs) := if_pos h

/-- R10: an invalid configuration is refused. -/
theorem construct_of_invalid {cfg : Cfg} (h : cfg.valid = false) (d : Draws) (errs : List Nat) :
    State.construct cfg d errs = .refused .invalidConfig := if_neg (by simp [h])

@[simp] theorem Scratch.read_nil (a : Nat) : Scratch.read [] a = 0 := rfl

/-- A written range reads as the bytes written there, and past them as before. -/
theorem Scratch.read_writeFrom (m : List Host.Cell) (a : Nat) (vs : List Byte) (i : Nat) :
    Scratch.read (Scratch.writeFrom m a vs) (a + i) = vs.getD i (Scratch.read m (a + i)) := by
  induction vs generalizing m a i with
  | nil => rfl
  | cons v vs ih =>
    unfold Scratch.writeFrom
    cases i with
    | zero => rw [Scratch.read_writeFrom_other _ _ _ (by omega)]; exact Scratch.read_write_same m a v
    | succ i =>
      rw [show a + (i + 1) = a + 1 + i by omega, ih, Scratch.read_write_other _ _ (by omega), List.getD_cons_succ]

/-- R34, R44: every byte of `SCR` holds its draw. -/
theorem read_scr_constructed (cfg : Cfg) (d : Draws) (errs : List Nat) {a : Nat}
    (h : a < Config.scrBytes) :
    Scratch.read (State.constructed cfg d errs).scr a = d.scr.getD a 0 := by
  have hr := Scratch.read_writeFrom [] 0 (d.scr.take Config.scrBytes) a
  rw [Nat.zero_add] at hr
  show Scratch.read (Scratch.writeFrom [] 0 (d.scr.take Config.scrBytes)) a = _
  rw [hr, Scratch.read_nil, List.getD_eq_getElem?_getD, List.getD_eq_getElem?_getD, List.getElem?_take_of_lt h]

/-- Settles O51: the table of R44 field by field; `SCR` and the frame memory are stored in canonical form, which
`read_scr_constructed` and `Memory.ofCells_of_wf` read back. -/
theorem constructionValues : Obligations.ConstructionValues := by
  intro cfg d errs
  refine ⟨fun hv => ⟨_, construct_of_valid hv d errs, ?_⟩, fun hv => construct_of_invalid hv d errs⟩
  have hready : (State.constructed cfg d errs).ready = true := rfl
  exact ⟨rfl, rfl, rfl, rfl, rfl, rfl, rfl, rfl, rfl, rfl, rfl,
    rfl, rfl, rfl, rfl, rfl, rfl, rfl, rfl, rfl, rfl, rfl, rfl, rfl, rfl,
    fun _ => read_scr_constructed cfg d errs,
    rfl, rfl, rfl, rfl, rfl,
    Memory.ofCells_of_wf,
    color_drawn d.panel,
    rfl, hready⟩

end Sys2Proof.Machine
end

section
/-! PROOFS. The invariants of the state: the memories (O43), the pins and the halt (O44), the fault record (O46), the
staging (O47), the history (O40), the refinement by micro-steps (O42) and `STATUS` (O52). -/

namespace Sys2Proof.Machine

variable {s t : State}

/-! ### The fields of each move -/

@[simp] theorem quiet_fault (m : MicroOp) (s : State) : (m.quiet s).fault = s.fault := by cases m <;> rfl
@[simp] theorem quiet_cs (m : MicroOp) (s : State) : (m.quiet s).cs = s.cs := by cases m <;> rfl

@[simp] theorem latched_fault (m : MicroOp) (s : State) : (m.latched s).fault = s.fault := by cases m <;> rfl

@[simp] theorem afterTransfer_fault (m : MicroOp) (s : State) : (m.afterTransfer s).fault = s.fault := by
  cases m <;> rfl
@[simp] theorem afterTransfer_cs (m : MicroOp) (s : State) : (m.afterTransfer s).cs = s.cs := by cases m <;> rfl

@[simp] theorem accepted_cfg (i : Instr) (s : State) : (accepted i s).cfg = s.cfg := by cases i <;> rfl
@[simp] theorem accepted_busErrs (i : Instr) (s : State) : (accepted i s).busErrs = s.busErrs := by cases i <;> rfl
@[simp] theorem accepted_cs (i : Instr) (s : State) : (accepted i s).cs = s.cs := by cases i <;> rfl
@[simp] theorem accepted_dc (i : Instr) (s : State) : (accepted i s).dc = s.dc := by cases i <;> rfl
@[simp] theorem accepted_fault (i : Instr) (s : State) : (accepted i s).fault = s.fault := by cases i <;> rfl
@[simp] theorem accepted_finfo (i : Instr) (s : State) : (accepted i s).finfo = s.finfo := by cases i <;> rfl
@[simp] theorem accepted_life (i : Instr) (s : State) : (accepted i s).life = s.life := by cases i <;> rfl
@[simp] theorem accepted_pstate (i : Instr) (s : State) : (accepted i s).pstate = s.pstate := by cases i <;> rfl
@[simp] theorem accepted_slen (i : Instr) (s : State) : (accepted i s).slen = s.slen := by cases i <;> rfl

/-! ### O43: the memories stay canonical -/

/-- Every event reaches the panel alone of the two memories. -/
theorem emit_keeps_memories (e : Event) (hs : s.ScratchInv ∧ s.FrameInv) :
    (s.emit e).ScratchInv ∧ (s.emit e).FrameInv := ⟨hs.1, wf_onEvent hs.2 s.cfg e⟩

/-- A chunk's colors, of whatever stream, fill at most the whole scratch buffer (R61, R175). -/
theorem length_colorBytes_chunk_le (colors : List Word) (n k : Nat) :
    (colorBytes (chunkColorsOf colors n k)).length ≤ Config.scrBytes := by
  have htake : (chunkColorsOf colors n k).length ≤ chunkSize n k := List.length_take_le _ _
  have hsize := chunkSize_le n k
  rw [length_colorBytes, Config.scrBytes]
  omega

/-- `STAGE` writes in canonical form, below index 1024, and sets `SLEN` to at most 1024 (R175). -/
theorem stage_keeps_scratchInv (k : Nat) (hs : s.ScratchInv) : (s.stage k).ScratchInv := by
  obtain ⟨hwf, hbelow, -⟩ := hs
  refine ⟨Scratch.wf_writeFrom hwf _ _, fun c hc => ?_, ?_⟩
  · rcases Scratch.mem_writeFrom hc with hc | ⟨-, hc⟩
    · exact hbelow c hc
    · have hlen := length_colorBytes_chunk_le s.srcc s.cnt.toNat k
      omega
  · have hsize := chunkSize_le s.cnt.toNat k
    rw [stage_slen, Config.scrBytes]
    omega

theorem run_keeps_memories {m : MicroOp} (hs : s.ScratchInv ∧ s.FrameInv) (hf : s.fault = false)
    (h : m.run s = .next t) : t.ScratchInv ∧ t.FrameInv := by
  rcases run_cases hf h with ⟨-, rfl⟩ | ⟨dc, bytes, -, -, ⟨-, -, rfl⟩ | ⟨-, rfl⟩⟩
  · cases m with
    | stage k => exact ⟨stage_keeps_scratchInv k hs.1, hs.2⟩
    | resl => exact emit_keeps_memories (.res 0) hs
    | resh => exact emit_keeps_memories (.res 1) hs
    | wait ms => exact emit_keeps_memories (.wait ms) hs
    | blset duty => exact emit_keeps_memories (.bl duty) hs
    | _ => exact hs
  · obtain ⟨⟨hwf, hbelow, hslen⟩, hframe⟩ := emit_keeps_memories (.xfer dc bytes) hs
    cases m with
    | xs => exact ⟨⟨hwf, hbelow, Nat.zero_le _⟩, hframe⟩
    | _ => exact ⟨⟨hwf, hbelow, hslen⟩, hframe⟩
  · obtain ⟨hscr, hframe⟩ := emit_keeps_memories (.xferFail dc bytes) hs
    cases m <;> exact ⟨hscr, hframe⟩

/-- Settles O43: only `STAGE` writes the scratch buffer and only an event reaches the frame memory, and
`run_keeps_memories` says both keep the canonical form. -/
theorem stepKeepsMemories : Obligations.StepKeepsMemories := by
  intro s t hscr hframe h
  refine step_keeps (P := fun u => u.ScratchInv ∧ u.FrameInv) ⟨hscr, hframe⟩ h (fun _ hu => hu) (fun _ hu => hu)
    (fun _ _ hu => hu) (fun _ hu => hu) (fun i u hu => ?_) (fun _ _ _ => run_keeps_memories)
  cases i <;> exact hu

/-! ### O44: `CS` between transfers, and a halted TPC -/

/-- What a micro-operation does to the pins and the flags: nothing, but that a good transfer releases `CS` and a failed
one halts TPC, no longer busy (R21, R231). -/
theorem run_pins {m : MicroOp} (hf : s.fault = false) (h : m.run s = .next t) :
    (t.fault = false ∧ t.life = s.life ∧ t.busy = s.busy ∧ (t.cs = s.cs ∨ t.cs = 1))
      ∨ (t.fault = true ∧ t.busy = false) := by
  obtain ⟨hfault, -, hbusy, -⟩ | ⟨hfault, -, hbusy, -⟩ := run_seqpc hf h
  · left
    obtain ⟨-, -, -, -, -, -, -, -, -, -, -, -, -, hlife, -⟩ := run_frame hf h
    refine ⟨hfault, hlife, hbusy, ?_⟩
    rcases run_cases hf h with ⟨-, rfl⟩ | ⟨dc, bytes, -, -, ⟨-, -, rfl⟩ | ⟨-, rfl⟩⟩
    · exact .inl (quiet_cs m s)
    · exact .inr (afterTransfer_cs m _)
    · exact absurd hfault (by simp)
  · exact .inr ⟨hfault, hbusy⟩

theorem run_keeps_pinsAndHalt {m : MicroOp} (hs : s.PinInv ∧ s.HaltInv) (hf : s.fault = false)
    (h : m.run s = .next t) : t.PinInv ∧ t.HaltInv := by
  obtain ⟨hpin, hhalt⟩ := hs
  obtain ⟨hfault, hlife, hbusy, hcs⟩ | ⟨hfault, hbusy⟩ := run_pins hf h
  · refine ⟨fun _ => hcs.elim (fun he => he.trans (hpin hf)) id, fun hh => ?_⟩
    have hsame : t.halted = s.halted := by simp [State.halted, hfault, hf, hlife]
    rw [hbusy]
    exact hhalt (hsame ▸ hh)
  · exact ⟨fun hok => absurd (hok.symm.trans hfault) (by simp), fun _ => hbusy⟩

/-- Acceptance sets `BUSY`, but only of a TPC that is not halted (R92). -/
theorem accepted_keeps_pinsAndHalt (i : Instr) (hr : s.ready = true) (hs : s.PinInv) :
    (accepted i s).PinInv ∧ (accepted i s).HaltInv := by
  have hnot : (accepted i s).halted = false := by
    rw [← not_halted_of_ready hr, State.halted, State.halted, accepted_fault, accepted_life]
  refine ⟨fun hf => ?_, fun hh => absurd (hnot.symm.trans hh) (by simp)⟩
  rw [accepted_cs]
  exact hs (accepted_fault i s ▸ hf)

theorem exec_keeps_pinsAndHalt {i : Instr} (hs : s.PinInv ∧ s.HaltInv) (h : exec i s = .next t) :
    t.PinInv ∧ t.HaltInv :=
  exec_keeps (P := fun u => u.PinInv ∧ u.HaltInv) (Q := fun u => u.PinInv ∧ u.HaltInv) hs h (fun _ _ _ => hs)
    (fun hr _ => accepted_keeps_pinsAndHalt i hr hs.1) (fun _ _ _ => run_keeps_pinsAndHalt)
    (fun _ hu _ => ⟨hu.1, fun _ => rfl⟩) (fun _ hu _ => hu)

/-- Settles O44: `run_pins` for the operation in progress; a teardown and an acceptance come only to a ready TPC, which
is neither halted nor busy. -/
theorem stepKeepsPinsAndHalt : Obligations.StepKeepsPinsAndHalt := by
  intro s t hpin hhalt h
  rcases step_cases h with rfl | ⟨-, -, -, rfl⟩ | ⟨hh, -, m, -, hm⟩ | ⟨hr, rfl⟩ | ⟨-, i, -, hi⟩ | ⟨-, rfl⟩
  · exact ⟨hpin, hhalt⟩
  · exact ⟨hpin, fun _ => rfl⟩
  · exact run_keeps_pinsAndHalt ⟨hpin, hhalt⟩ (halted_eq_false_iff.mp hh).1 hm
  · exact ⟨hpin, fun _ => (ready_iff.mp hr).2.2⟩
  · exact exec_keeps_pinsAndHalt (s := s.consume) ⟨hpin, hhalt⟩ hi
  · exact ⟨hpin, hhalt⟩

/-! ### O46: the fault record -/

/-- The invariant is about `FAULT`, `FINFO`, `TRACE`, `DC` and `XCNT` alone. -/
theorem faultInv_congr (hf : t.fault = s.fault) (hi : t.finfo = s.finfo) (ht : t.trace = s.trace)
    (hd : t.dc = s.dc) (hx : t.xcnt = s.xcnt) (hs : s.FaultInv) : t.FaultInv := by
  unfold State.FaultInv
  rwa [hf, hi, ht, hd, hx]

/-- Without a fault, an event that is no failed transfer keeps the invariant. -/
theorem faultInv_append {e : Event} (hs : s.FaultInv) (hf : s.fault = false) (hft : t.fault = false)
    (ht : t.trace = s.trace ++ [e]) (he : ∀ dc bytes, e ≠ .xferFail dc bytes) : t.FaultInv := by
  refine ⟨fun _ dc bytes hmem => ?_, fun h => absurd (hft.symm.trans h) (by simp)⟩
  rw [ht, List.mem_append, List.mem_singleton] at hmem
  exact hmem.elim (hs.1 hf dc bytes) (fun h => he dc bytes h.symm)

/-- The fault entry after a failed transfer records that transfer, the first one to fail (R231). -/
theorem failTransfer_faultInv {k : Nat} {bytes : List Byte} (hx : s.xcnt = k + 1)
    (hs : ∀ dc bytes', Event.xferFail dc bytes' ∉ s.trace) :
    (s.failTransfer k s.dc bytes).FaultInv :=
  ⟨fun h => absurd h (by simp), fun _ => ⟨s.trace, bytes, rfl, hs, rfl, rfl, hx.symm⟩⟩

theorem run_keeps_faultInv {m : MicroOp} (hs : s.FaultInv) (hf : s.fault = false) (h : m.run s = .next t) :
    t.FaultInv := by
  rcases run_cases hf h with ⟨-, rfl⟩ | ⟨dc, bytes, -, -, ⟨-, -, rfl⟩ | ⟨-, rfl⟩⟩
  · have hft : (m.quiet s).fault = false := (quiet_fault m s).trans hf
    rcases quiet_trace m s with ht | ⟨e, ht, he⟩
    · exact ⟨fun _ => by simpa [ht] using hs.1 hf, fun h => absurd (hft.symm.trans h) (by simp)⟩
    · refine faultInv_append hs hf hft ht fun dc bytes hx => ?_
      rw [hx] at he
      exact absurd he (by simp [Event.isTransfer])
  · exact faultInv_append (e := .xfer dc bytes) hs hf (by simpa using hf) (by simp) (fun _ _ he => nomatch he)
  · exact failTransfer_faultInv (s := (m.latched s).started dc) (by simp) (by simpa using hs.1 hf)

/-- Settles O46: of the moves a step is made of, only a micro-operation touches what the invariant is about, and
`run_keeps_faultInv` says that the one that faults records its own, last, transfer. -/
theorem stepKeepsFaultRecord : Obligations.StepKeepsFaultRecord := by
  intro s t hs h
  exact step_keeps (P := State.FaultInv) hs h (fun _ hu => hu) (fun _ hu => hu) (fun _ _ hu => hu) (fun _ hu => hu)
    (fun i u => faultInv_congr (accepted_fault i u) (accepted_finfo i u) (accepted_trace i u) (accepted_dc i u)
      (accepted_xcnt i u)) (fun _ _ _ => run_keeps_faultInv)

/-! ### O40: the configuration and the history -/

/-- `t` has the configuration and the oracle of `s`, and the trace and the responses of `s` with what came after. -/
structure Continues (s t : State) : Prop where
  cfg : t.cfg = s.cfg
  busErrs : t.busErrs = s.busErrs
  trace : s.trace <+: t.trace
  responses : s.responses <+: t.responses

theorem Continues.refl (s : State) : Continues s s := ⟨rfl, rfl, List.prefix_rfl, List.prefix_rfl⟩

theorem Continues.trans {u : State} (hst : Continues s t) (htu : Continues t u) : Continues s u :=
  ⟨htu.cfg.trans hst.cfg, htu.busErrs.trans hst.busErrs, hst.trace.trans htu.trace,
    hst.responses.trans htu.responses⟩

theorem respond_continues (s : State) (r : Response) : Continues s (s.respond r) :=
  ⟨rfl, rfl, List.prefix_rfl, List.prefix_append _ _⟩

theorem complete_continues (s : State) : Continues s s.complete := ⟨rfl, rfl, List.prefix_rfl, List.prefix_append _ _⟩

/-- Acceptance emits nothing, and answers nothing but for `PACK` (R92, R171). -/
theorem accepted_continues (i : Instr) (s : State) : Continues s (accepted i s) := by
  refine ⟨accepted_cfg i s, accepted_busErrs i s, accepted_trace i s ▸ List.prefix_rfl, ?_⟩
  cases i with
  | pack r g b => exact List.prefix_append _ _
  | _ => exact List.prefix_rfl

/-- A micro-operation appends at most one event (R96). -/
theorem run_trace_prefix {m : MicroOp} (hf : s.fault = false) (h : m.run s = .next t) : s.trace <+: t.trace := by
  rcases run_cases hf h with ⟨-, rfl⟩ | ⟨dc, bytes, -, -, ⟨-, -, rfl⟩ | ⟨-, rfl⟩⟩
  · rcases quiet_trace m s with ht | ⟨e, ht, -⟩
    · exact ht ▸ List.prefix_rfl
    · exact ⟨[e], ht.symm⟩
  · exact ⟨[.xfer dc bytes], by simp⟩
  · exact ⟨[.xferFail dc bytes], by simp⟩

theorem run_continues {m : MicroOp} (hf : s.fault = false) (h : m.run s = .next t) : Continues s t := by
  obtain ⟨hcfg, -, -, -, -, -, -, -, -, -, -, -, -, -, -, hbus, -⟩ := run_frame hf h
  refine ⟨hcfg, hbus, run_trace_prefix hf h, ?_⟩
  obtain ⟨-, -, -, hr⟩ | ⟨-, -, -, hr⟩ := run_seqpc hf h <;> rw [hr]
  exact List.prefix_append _ _

/-- Settles O40: each move a step is made of continues the state before it. -/
theorem stepKeepsConfigurationAndHistory : Obligations.StepKeepsConfigurationAndHistory := by
  intro s t h
  obtain ⟨hcfg, hbus, ⟨es, hes⟩, rs, hrs⟩ : Continues s t :=
    step_keeps (Continues.refl s) h (fun _ hu => ⟨hu.cfg, hu.busErrs, hu.trace, hu.responses⟩)
      (fun _ hu => ⟨hu.cfg, hu.busErrs, hu.trace, hu.responses⟩) (fun u r hu => hu.trans (respond_continues u r))
      (fun u hu => hu.trans (complete_continues u))
      (fun i u hu => hu.trans (accepted_continues i u)) (fun _ _ _ hu hf hm => hu.trans (run_continues hf hm))
  exact ⟨hcfg, hbus, ⟨es, hes.symm⟩, rs, hrs.symm⟩

/-! ### The operation in progress, one micro-step at a time -/

/-- An operation is in progress: TPC is busy and not halted. -/
abbrev State.running (s : State) : Prop := s.halted = false ∧ s.busy = true

/-- How the operation in progress will end: the rest of its list, from `SEQPC` on, then completion. -/
def State.rest (s : State) : Host.Outcome State Fault Refusal := finish (runOps (s.sequence.drop s.seqpc) s)

/-- At step 0 the rest is the whole operation. -/
theorem drive_eq_rest (h : s.seqpc = 0) : s.drive = s.rest := by rw [State.drive, State.rest, h, List.drop_zero]

theorem step_of_running (h : s.running) : step s = microStep s := serve_busy h.1 h.2

theorem tick_of_running (h : s.running) : tick s = microStep s := serve_busy h.1 h.2

/-- Past the end of the list the micro-step completes the operation (R97). -/
theorem microStep_last (h : s.sequence[s.seqpc]? = none) : microStep s = .next s.complete := by
  rw [microStep, h]

theorem microStep_op {m : MicroOp} (h : s.sequence[s.seqpc]? = some m) : microStep s = m.run s := by
  rw [microStep, h]

/-- A micro-operation that does not fault leaves the operation running, at the next step of the same list. -/
theorem run_running {m : MicroOp} (hr : s.running) (hm : s.sequence[s.seqpc]? = some m) (h : m.run s = .next t)
    (hf : t.fault = false) : t.running ∧ t.sequence = s.sequence ∧ t.seqpc = s.seqpc + 1 := by
  have hsf := (halted_eq_false_iff.mp hr.1).1
  obtain ⟨-, hpc, hbusy, -⟩ | ⟨hfault, -⟩ := run_seqpc hsf h
  · obtain ⟨-, -, -, -, -, -, -, -, -, -, -, -, -, hlife, -⟩ := run_frame hsf h
    exact ⟨⟨halted_eq_false_iff.mpr ⟨hf, hlife.trans (halted_eq_false_iff.mp hr.1).2⟩, hbusy.trans hr.2⟩,
      sequence_run hsf (List.mem_of_getElem? hm) h, hpc⟩
  · exact absurd (hf.symm.trans hfault) (by simp)

/-- A micro-step is the rest of the operation, or leaves the same rest to a state that is one step further on. -/
theorem microStep_rest (hr : s.running) :
    microStep s = s.rest
      ∨ ∃ t, microStep s = .next t ∧ t.running ∧ s.rest = t.rest ∧ s.seqpc < s.sequence.length
          ∧ t.sequence = s.sequence ∧ t.seqpc = s.seqpc + 1 := by
  have hsf := (halted_eq_false_iff.mp hr.1).1
  rcases hm : s.sequence[s.seqpc]? with _ | m
  · left
    rw [microStep_last hm, State.rest, List.drop_eq_nil_of_le (List.getElem?_eq_none_iff.mp hm), runOps_nil,
      finish_next, if_neg (by simp [hsf])]
  · obtain ⟨hlt, hget⟩ := List.getElem?_eq_some_iff.mp hm
    have hdrop : s.sequence.drop s.seqpc = m :: s.sequence.drop (s.seqpc + 1) := by
      rw [List.drop_eq_getElem_cons hlt, hget]
    rw [microStep_op hm, State.rest, hdrop]
    rcases hrun : m.run s with t | r | r
    · cases hf : t.fault
      · obtain ⟨ht, hseq, hpc⟩ := run_running hr hm hrun hf
        refine .inr ⟨t, rfl, ht, ?_, hlt, hseq, hpc⟩
        rw [runOps_cons_next hrun hf, State.rest, hseq, hpc]
      · left
        rw [runOps_cons_fault hrun hf, finish_next, if_pos hf]
    · left
      rw [runOps, hrun]
      rfl
    · left
      rw [runOps, hrun]
      rfl

/-- The induction over the operation in progress, packaged: its last micro-step, and one more micro-step before. -/
theorem operation_induction {P : State → Prop} (hlast : ∀ u, u.running → microStep u = u.rest → P u)
    (hmore : ∀ u v, u.running → microStep u = .next v → u.rest = v.rest → P v → P u) (hr : s.running) : P s := by
  induction hn : s.sequence.length - s.seqpc generalizing s with
  | zero =>
    rcases microStep_rest hr with h | ⟨t, -, -, -, hlt, -⟩
    · exact hlast s hr h
    · omega
  | succ n ih =>
    rcases microStep_rest hr with h | ⟨t, h, ht, hrest, hlt, hseq, hpc⟩
    · exact hlast s hr h
    · exact hmore s t hr h hrest (ih ht (by rw [hseq, hpc]; omega))

/-- Acceptance by a ready TPC starts an operation, at step 0 (R92). -/
theorem accepted_running {i : Instr} (hp : ∀ r g b, i ≠ .pack r g b) (hr : s.ready = true) :
    (accepted i s).running := by
  obtain ⟨hbusy, -, hfault, hlife⟩ := accepted_facts hp s
  obtain ⟨hl, hf, -⟩ := ready_iff.mp hr
  exact ⟨halted_eq_false_iff.mpr ⟨hfault.trans hf, hlife.trans hl⟩, hbusy⟩

/-- An accepted instruction other than `PACK` is the rest of its operation. -/
theorem exec_eq_rest {i : Instr} (hp : ∀ r g b, i ≠ .pack r g b) (hr : s.ready = true) :
    exec i s = (accepted i s).rest := by
  rw [exec_eq_drive i hp, whenReady_true hr, drive_eq_rest (accepted_facts hp s).2.1]

/-! ### O42: the refinement by micro-steps -/

theorem core_run_succ {M : Host.Core} {u v : M.State} {n : Nat} (h : M.step u = .next v) :
    M.run (n + 1) u = M.run n v := by rw [Host.Core.run, h]

theorem core_run_one {M : Host.Core} (u : M.State) : M.run 1 u = M.step u := by
  rw [Host.Core.run]
  rcases M.step u with v | r | r <;> rfl

theorem ticks_succ {n : Nat} (h : tick s = .next t) : ticks (n + 1) s = ticks n t := by rw [ticks, h]

/-- The operation in progress ends where as many steps, and as many ticks, of the machine end. -/
theorem rest_eq_run_and_ticks (hr : s.running) : ∃ n, core.run n s = s.rest ∧ ticks n s = s.rest := by
  refine operation_induction (P := fun u => ∃ n, core.run n u = u.rest ∧ ticks n u = u.rest)
    (fun u hu hlast => ⟨1, ?_, ?_⟩) (fun u v hu hstep hrest ⟨n, hrun, hticks⟩ => ⟨n + 1, ?_, ?_⟩) hr
  · exact (core_run_one (M := core) u).trans ((step_of_running hu).trans hlast)
  · rw [ticks_one, tick_of_running hu, hlast]
  · rw [hrest, ← hrun]
    exact core_run_succ (M := core) ((step_of_running hu).trans hstep)
  · rw [ticks_succ ((tick_of_running hu).trans hstep), hticks, hrest]

theorem exec_eq_run_and_ticks (i : Instr) (hr : s.ready = true) :
    ∃ n, core.run n (accepted i s) = exec i s ∧ ticks n (accepted i s) = exec i s := by
  by_cases hp : ∃ r g b, i = .pack r g b
  · obtain ⟨r, g, b, rfl⟩ := hp
    have hpack : exec (.pack r g b) s = .next (s.packed r g b) := whenReady_true hr
    exact ⟨0, hpack.symm, hpack.symm⟩
  · have hp' : ∀ r g b, i ≠ .pack r g b := fun r g b he => hp ⟨r, g, b, he⟩
    rw [exec_eq_rest hp' hr]
    exact rest_eq_run_and_ticks (accepted_running hp' hr)

/-- An idle, ready TPC that finds no request for an instruction makes one move, whatever starting one means. -/
theorem tick_eq_step_of_no_request (hr : s.ready = true) (h : ∀ i, fetch s ≠ .runs i) : tick s = step s := by
  have hb := (ready_iff.mp hr).2.2
  unfold tick step serve
  rcases hf : fetch s with _ | _ | i | _ | r
  case runs => exact absurd hf (h i)
  all_goals rfl

/-- Every step is one or more ticks (log 1): one, but for a step that starts an operation. -/
theorem step_eq_ticks (s : State) : ∃ n, 0 < n ∧ ticks n s = step s := by
  by_cases hrun : s.ready = true ∧ ∃ i, fetch s = .runs i
  · obtain ⟨hr, i, hf⟩ := hrun
    obtain ⟨n, -, hn⟩ := exec_eq_run_and_ticks (s := s.consume) i hr
    have htick : tick s = .next (accepted i s.consume) := serve_runs hr hf
    exact ⟨n + 1, n.succ_pos, by rw [ticks_succ htick, hn, step, serve_runs hr hf]⟩
  · refine ⟨1, Nat.one_pos, ?_⟩
    rw [ticks_one]
    cases hh : s.halted
    · cases hb : s.busy
      · have hr : s.ready = true := ready_iff.mpr ⟨(halted_eq_false_iff.mp hh).2, (halted_eq_false_iff.mp hh).1, hb⟩
        exact tick_eq_step_of_no_request hr fun i hf => hrun ⟨hr, i, hf⟩
      · exact tick_eq_step_of_busy hh hb
    · rw [tick, step, serve_halted hh, serve_halted hh]

/-- R45: `STATUS` of a busy TPC is that of the same TPC idle, with bit 0 set. -/
theorem status_of_busy (hb : t.busy = true) (hf : t.fault = s.fault) (hp : t.pstate = s.pstate) :
    t.status = s.status ||| 1 := by
  have hone : (1 : BitVec 8) = 0#7 ++ BitVec.ofBool true := rfl
  unfold State.status
  rw [hb, hf, hp, hone, BitVec.or_append, BitVec.or_zero, BitVec.ofBool_or_ofBool, Bool.or_true]

/-- Settles O42: `rest_eq_run_and_ticks` for the operation, `step_eq_ticks` for the ticks of a step, and what acceptance
makes of the three fields of `STATUS`. -/
theorem operationIsItsMicroSteps : Obligations.OperationIsItsMicroSteps := by
  refine ⟨fun i s hr => ?_, step_eq_ticks, fun i s hr hf hp => ?_⟩
  · obtain ⟨n, hn, -⟩ := exec_eq_run_and_ticks i hr
    exact ⟨n, hn⟩
  · have htick : tick s = .next (accepted i s.consume) := serve_runs hr hf
    rw [sampleStatus, ticks_one, htick]
    exact congrArg some (status_of_busy (accepted_facts hp s.consume).1 (accepted_fault i s.consume)
      (accepted_pstate i s.consume))

/-! ### O52: `STATUS` -/

/-- Settles O52: the fields of the concatenation that R45 writes down. -/
theorem statusView : Obligations.StatusView := by
  intro s
  unfold State.status
  refine ⟨?_, ?_, ?_, ?_⟩
  · rw [BitVec.getLsbD_append, if_pos (by omega)]
    simp
  · rw [BitVec.getLsbD_append, if_neg (by omega), BitVec.getLsbD_append, if_pos (by omega)]
    simp
  · rw [BitVec.extractLsb'_append_eq_of_le (by omega), BitVec.extractLsb'_append_eq_of_le (by omega)]
    exact BitVec.extractLsb'_append_eq_right
  · rw [BitVec.extractLsb'_append_eq_of_le (by omega), BitVec.extractLsb'_append_eq_of_le (by omega)]
    exact BitVec.extractLsb'_append_eq_left

/-! ### O47: what a request presents is well formed -/

/-- A length that a 32-bit count states fits format L. -/
theorem count_fits {n : Nat} {count : BitVec 32} (h : n = count.toNat) : decide (n < 2 ^ 32) = true :=
  decide_eq_true (h ▸ count.isLt)

theorem decodeDat_wellFormed {count : BitVec 32} {src : Source} {i : Instr} (h : decodeDat count src = .instr i) :
    i.wellFormed = true := by
  unfold decodeDat at h
  split at h
  · split at h
    · rename_i hlen
      cases h
      exact count_fits hlen
    · cases h
  · cases h
  · cases h

theorem decodeSer_wellFormed {count : BitVec 32} {src : Source} {i : Instr} (h : decodeSer count src = .instr i) :
    i.wellFormed = true := by
  unfold decodeSer at h
  split at h
  · split at h
    · rename_i hlen
      cases h
      exact count_fits hlen
    · cases h
  · cases h
  · cases h

/-- R33, R93, R234: what is decoded can be encoded; a stream has the length that its request states. -/
theorem decodeRequest_wellFormed {w : ReqWord} {src : Source} {i : Instr} (h : decodeRequest w src = .instr i) :
    i.wellFormed = true := by
  unfold decodeRequest at h
  split at h
  case h_2 => exact decodeDat_wellFormed h
  case h_8 => exact decodeSer_wellFormed h
  all_goals cases h
  all_goals rfl

theorem decode_wellFormed {cfg : Cfg} {e : Encoded} {i : Instr} (h : decode cfg e = .instr i) :
    i.wellFormed = true := by
  cases e with
  | request w src => exact decodeRequest_wellFormed h
  | wire b =>
    simp only [decode] at h
    split at h
    · rename_i c _
      cases h
      cases c <;> rfl
    · cases h

theorem instr_of_fetchedOf {d : Decoded} {i : Instr} (h : fetchedOf d = .runs i) : d = .instr i := by
  unfold fetchedOf at h
  split at h
  · cases h
    rfl
  all_goals cases h

/-- R91: the request a ready TPC finds at its port is well formed. -/
theorem fetch_wellFormed {i : Instr} (h : fetch s = .runs i) : i.wellFormed = true := by
  unfold fetch at h
  split at h
  · cases h
  · cases h
  · exact decode_wellFormed (instr_of_fetchedOf h)

/-! ### O47: where the lists use the scratch buffer -/

/-- `STAGE` and `XS` are the micro-operations that use the scratch buffer (R175). -/
def MicroOp.usesScratch : MicroOp → Bool
  | .stage _ => true
  | .xs => true
  | .xc _ => false
  | .xd _ => false
  | .resl => false
  | .resh => false
  | .wait _ => false
  | .blset _ => false
  | .pst _ => false

/-- Only the list of `SER` uses the scratch buffer (R60, R175). -/
theorem not_usesScratch_of_mem {m : MicroOp} (ho : s.opr ≠ 8) (hm : m ∈ s.sequence) : m.usesScratch = false := by
  have hall : s.sequence.all (fun m => !m.usesScratch) = true := by
    unfold State.sequence
    split
    case h_2 =>
      unfold seqDat
      split <;> rfl
    case h_7 h => exact absurd (BitVec.eq_of_toNat_eq h) ho
    all_goals rfl
  simpa using List.all_eq_true.mp hall m hm

/-- A list of pairs, each element's first half at an even place and its second half at the next. -/
theorem getElem?_flatMap_pair {α β : Type} (f g : α → β) (l : List α) (k : Nat) :
    (l.flatMap fun x => [f x, g x])[2 * k]? = l[k]?.map f
      ∧ (l.flatMap fun x => [f x, g x])[2 * k + 1]? = l[k]?.map g := by
  induction l generalizing k with
  | nil => exact ⟨rfl, rfl⟩
  | cons x l ih =>
    cases k with
    | zero => exact ⟨rfl, rfl⟩
    | succ k => exact ih k

theorem sequence_ser_even (ho : s.opr = 8) (k : Nat) :
    s.sequence[2 * k]? = (List.range (chunkCount s.cnt.toNat))[k]?.map .stage := by
  rw [sequence_ser ho]
  exact (getElem?_flatMap_pair MicroOp.stage (fun _ => MicroOp.xs) _ k).1

theorem sequence_ser_odd (ho : s.opr = 8) (k : Nat) :
    s.sequence[2 * k + 1]? = (List.range (chunkCount s.cnt.toNat))[k]?.map fun _ => .xs := by
  rw [sequence_ser ho]
  exact (getElem?_flatMap_pair MicroOp.stage (fun _ => MicroOp.xs) _ k).2

/-- `XS` stands at no even place of any list. -/
theorem sequence_even_ne_xs (s : State) (k : Nat) : s.sequence[2 * k]? ≠ some .xs := by
  by_cases ho : s.opr = 8
  · rw [sequence_ser_even ho]
    cases (List.range (chunkCount s.cnt.toNat))[k]? <;> simp
  · exact fun h => absurd (not_usesScratch_of_mem ho (List.mem_of_getElem? h)) (by simp [MicroOp.usesScratch])

/-- A step of `SER` stages a chunk, and `XS` comes next; or it is `XS`, and `XS` does not come next (R175). -/
theorem sequence_ser_cases {m : MicroOp} {n : Nat} (ho : s.opr = 8) (hm : s.sequence[n]? = some m) :
    (∃ k, k < chunkCount s.cnt.toNat ∧ n = 2 * k ∧ m = .stage k ∧ s.sequence[n + 1]? = some .xs)
      ∨ (m = .xs ∧ s.sequence[n + 1]? ≠ some .xs) := by
  obtain ⟨k, rfl | rfl⟩ := n.even_or_odd'
  · left
    rw [sequence_ser_even ho, Option.map_eq_some_iff] at hm
    obtain ⟨j, hj, rfl⟩ := hm
    obtain ⟨hlt, hget⟩ := List.getElem?_eq_some_iff.mp hj
    rw [List.getElem_range] at hget
    subst hget
    refine ⟨k, by simpa using hlt, rfl, rfl, ?_⟩
    rw [sequence_ser_odd ho, hj]
    rfl
  · right
    rw [sequence_ser_odd ho, Option.map_eq_some_iff] at hm
    obtain ⟨-, -, rfl⟩ := hm
    exact ⟨rfl, sequence_even_ne_xs s (k + 1)⟩

/-! ### O47: what a micro-operation does to `SLEN` -/

@[simp] theorem latched_slen (m : MicroOp) (s : State) : (m.latched s).slen = s.slen := by cases m <;> rfl

theorem quiet_slen {m : MicroOp} (hm : m.usesScratch = false) (s : State) : (m.quiet s).slen = s.slen := by
  cases m with
  | stage k => cases hm
  | _ => rfl

theorem afterTransfer_slen {m : MicroOp} (hm : m.usesScratch = false) (s : State) :
    (m.afterTransfer s).slen = s.slen := by
  cases m with
  | xs => cases hm
  | _ => rfl

/-- A micro-operation that does not use the scratch buffer leaves `SLEN`, faulted or not. -/
theorem run_keeps_slen {m : MicroOp} (hm : m.usesScratch = false) (hf : s.fault = false) (h : m.run s = .next t) :
    t.slen = s.slen := by
  rcases run_cases hf h with ⟨-, rfl⟩ | ⟨dc, bytes, -, -, ⟨-, -, rfl⟩ | ⟨-, rfl⟩⟩
  · exact quiet_slen hm s
  · exact (afterTransfer_slen hm _).trans (latched_slen m s)
  · exact latched_slen m s

/-- `XS` that does not fault empties the scratch buffer (R175). -/
theorem run_xs_slen (hf : s.fault = false) (h : MicroOp.xs.run s = .next t) (hft : t.fault = false) : t.slen = 0 := by
  rcases run_cases hf h with ⟨hq, -⟩ | ⟨dc, bytes, -, -, ⟨-, -, rfl⟩ | ⟨-, rfl⟩⟩
  · exact absurd hq (by simp [MicroOp.transfer])
  · rfl
  · exact absurd hft (by simp)

/-! ### O47: staging stays in step with the sequencer -/

/-- Where `XS` comes next the scratch buffer holds the bytes of the chunk just staged, else `SLEN` is 0. -/
def State.ScratchInStep (s : State) : Prop :=
  (s.sequence[s.seqpc]? = some .xs ∧ 0 < s.slen
      ∧ Scratch.readFrom s.scr 0 s.slen = colorBytes (chunkColorsOf s.srcc s.cnt.toNat (s.seqpc / 2)))
    ∨ (s.sequence[s.seqpc]? ≠ some .xs ∧ s.slen = 0)

/-- The staging invariant of a busy TPC. -/
theorem stagingInv_iff_of_busy (hb : s.busy = true) :
    s.StagingInv ↔ s.seqpc ≤ s.sequence.length ∧ (s.opr = 2 → s.srcb.length = s.cnt.toNat)
      ∧ (s.opr = 8 → s.srcc.length = s.cnt.toNat) ∧ s.ScratchInStep := by
  constructor
  · rintro ⟨hbusy, -⟩
    obtain ⟨hpc, hdat, hser, hxs, hother⟩ := hbusy hb
    refine ⟨hpc, hdat, hser, ?_⟩
    by_cases hnext : s.sequence[s.seqpc]? = some .xs
    · exact .inl ⟨hnext, hxs hnext⟩
    · exact .inr ⟨hnext, hother hnext⟩
  · rintro ⟨hpc, hdat, hser, hstep⟩
    refine ⟨fun _ => ⟨hpc, hdat, hser, fun hnext => ?_, fun hnext => ?_⟩,
      fun hidle => absurd (hb.symm.trans hidle) (by simp)⟩
    · obtain ⟨-, hstaged⟩ | ⟨hne, -⟩ := hstep
      · exact hstaged
      · exact absurd hnext hne
    · obtain ⟨heq, -⟩ | ⟨-, hzero⟩ := hstep
      · exact absurd heq hnext
      · exact hzero

/-- The staging invariant of a TPC that is not busy. -/
theorem stagingInv_iff_of_idle (hb : s.busy = false) : s.StagingInv ↔ (s.fault = false → s.slen = 0) :=
  ⟨fun hs => hs.2 hb, fun h => ⟨fun hbusy => absurd (hb.symm.trans hbusy) (by simp), fun _ => h⟩⟩

/-- Every micro-operation of a list leaves the scratch buffer in step with the one that comes next. -/
theorem run_scratchInStep {m : MicroOp} (hr : s.running) (hlen : s.opr = 8 → s.srcc.length = s.cnt.toNat)
    (hs : s.ScratchInStep) (hm : s.sequence[s.seqpc]? = some m) (h : m.run s = .next t) (hft : t.fault = false) :
    t.ScratchInStep := by
  have hf := (halted_eq_false_iff.mp hr.1).1
  obtain ⟨-, hseq, hpc⟩ := run_running hr hm h hft
  unfold State.ScratchInStep
  rw [hseq, hpc]
  by_cases ho : s.opr = 8
  · obtain ⟨k, hk, hn, rfl, hnext⟩ | ⟨rfl, hnext⟩ := sequence_ser_cases ho hm
    · left
      rw [run_stage hf] at h
      cases h
      have hpos := chunkSize_pos hk
      refine ⟨hnext, show 0 < 2 * chunkSize s.cnt.toNat k by omega, ?_⟩
      have hhalf : (s.seqpc + 1) / 2 = k := by omega
      rw [hhalf]
      exact readFrom_stage (hlen ho).ge k
    · exact .inr ⟨hnext, run_xs_slen hf h hft⟩
  · have huses : ∀ {n : Nat} {o : MicroOp}, s.sequence[n]? = some o → o.usesScratch = false :=
      fun hget => not_usesScratch_of_mem ho (List.mem_of_getElem? hget)
    obtain ⟨hxs, -⟩ | ⟨-, hzero⟩ := hs
    · exact absurd (huses hxs) (by simp [MicroOp.usesScratch])
    · exact .inr ⟨fun hxs => absurd (huses hxs) (by simp [MicroOp.usesScratch]),
        (run_keeps_slen (huses hm) hf h).trans hzero⟩

theorem microStep_keeps_stagingInv (hs : s.StagingInv) (hr : s.running) (h : microStep s = .next t) :
    t.StagingInv := by
  obtain ⟨hpc, hdat, hser, hstep⟩ := (stagingInv_iff_of_busy hr.2).mp hs
  rcases hm : s.sequence[s.seqpc]? with _ | m
  · rw [microStep_last hm] at h
    cases h
    refine (stagingInv_iff_of_idle rfl).mpr fun _ => ?_
    obtain ⟨hxs, -⟩ | ⟨-, hzero⟩ := hstep
    · rw [hm] at hxs
      cases hxs
    · exact hzero
  · rw [microStep_op hm] at h
    have hsf := (halted_eq_false_iff.mp hr.1).1
    cases hft : t.fault
    · obtain ⟨ht, hseq, hnext⟩ := run_running hr hm h hft
      obtain ⟨-, hopr, hcnt, hsrcb, hsrcc, -⟩ := run_frame hsf h
      obtain ⟨hlt, -⟩ := List.getElem?_eq_some_iff.mp hm
      refine (stagingInv_iff_of_busy ht.2).mpr ⟨?_, ?_, ?_, run_scratchInStep hr hser hstep hm h hft⟩
      · rwa [hseq, hnext]
      · rwa [hopr, hsrcb, hcnt]
      · rwa [hopr, hsrcc, hcnt]
    · obtain ⟨hok, -⟩ | ⟨-, -, hbusy, -⟩ := run_seqpc hsf h
      · exact absurd (hft.symm.trans hok) (by simp)
      · exact (stagingInv_iff_of_idle hbusy).mpr fun hok => absurd (hft.symm.trans hok) (by simp)

/-- What every micro-step keeps holds where the operation ends. -/
theorem rest_keeps_stagingInv {u : State} (hu : u.running) (hs : u.StagingInv) (h : u.rest = .next t) :
    t.StagingInv := by
  refine operation_induction (P := fun v => v.StagingInv → v.rest = .next t → t.StagingInv)
    (fun v hv hlast hs h => ?_) (fun v w hv hstep hrest ih hs h => ?_) hu hs h
  · exact microStep_keeps_stagingInv hs hv (hlast.trans h)
  · exact ih (microStep_keeps_stagingInv hs hv hstep) (hrest.symm.trans h)

/-- The stream an accepted `DAT` or `SER` latches has the length in `CNT` (R33, R93). -/
theorem accepted_streams {i : Instr} (hw : i.wellFormed = true) (hp : ∀ r g b, i ≠ .pack r g b) (s : State) :
    ((accepted i s).opr = 2 → (accepted i s).srcb.length = (accepted i s).cnt.toNat)
      ∧ ((accepted i s).opr = 8 → (accepted i s).srcc.length = (accepted i s).cnt.toNat) := by
  cases i with
  | dat bytes =>
    have hlt : bytes.length < 2 ^ 32 := by simpa [Instr.wellFormed] using hw
    exact ⟨fun _ => (Nat.mod_eq_of_lt hlt).symm, fun h => absurd h (by simp [accepted])⟩
  | ser colors =>
    have hlt : colors.length < 2 ^ 32 := by simpa [Instr.wellFormed] using hw
    exact ⟨fun h => absurd h (by simp [accepted]), fun _ => (Nat.mod_eq_of_lt hlt).symm⟩
  | pack r g b => exact absurd rfl (hp r g b)
  | _ => exact ⟨fun h => absurd h (by simp [accepted]), fun h => absurd h (by simp [accepted])⟩

theorem accepted_stagingInv {i : Instr} (hw : i.wellFormed = true) (hp : ∀ r g b, i ≠ .pack r g b)
    (hs : s.slen = 0) : (accepted i s).StagingInv := by
  obtain ⟨hbusy, hpc, -, -⟩ := accepted_facts hp s
  obtain ⟨hdat, hser⟩ := accepted_streams hw hp s
  refine (stagingInv_iff_of_busy hbusy).mpr ⟨hpc ▸ Nat.zero_le _, hdat, hser, .inr ⟨?_, ?_⟩⟩
  · rw [hpc]
    exact sequence_even_ne_xs _ 0
  · rw [accepted_slen, hs]

theorem exec_keeps_stagingInv {i : Instr} (hw : i.wellFormed = true) (hs : s.StagingInv)
    (h : exec i s = .next t) : t.StagingInv := by
  rcases exec_cases h with ⟨-, rfl⟩ | ⟨-, r, g, b, -, rfl⟩ | ⟨hr, hp, -⟩
  · exact hs
  · exact hs
  · obtain ⟨-, hf, hb⟩ := ready_iff.mp hr
    rw [exec_eq_rest hp hr] at h
    exact rest_keeps_stagingInv (accepted_running hp hr) (accepted_stagingInv hw hp (hs.2 hb hf)) h

/-- Settles O47: `microStep_keeps_stagingInv` for a busy TPC; an instruction is its micro-steps from acceptance on, and
the port presents only streams of the stated length. -/
theorem stepKeepsStaging : Obligations.StepKeepsStaging := by
  intro s t hs h
  rcases step_cases h with rfl | ⟨hh, hb, -⟩ | ⟨hh, hb, -⟩ | ⟨-, rfl⟩ | ⟨-, i, hf, hi⟩ | ⟨-, rfl⟩
  · exact hs
  · exact microStep_keeps_stagingInv hs ⟨hh, hb⟩ ((step_of_running ⟨hh, hb⟩).symm.trans h)
  · exact microStep_keeps_stagingInv hs ⟨hh, hb⟩ ((step_of_running ⟨hh, hb⟩).symm.trans h)
  · exact hs
  · exact exec_keeps_stagingInv (s := s.consume) (fetch_wellFormed hf) hs hi
  · exact hs

end Sys2Proof.Machine
end

section
/-! PROOFS. Encoding: the round trip (O1), the bits a format names (O2) and the sample words (O3). -/

namespace Sys2Proof

variable {w : ReqWord}

/-! ### What each request code decodes to -/

theorem decodeRequest_cmd (h : ReqWord.op w = 1) (src : Source) :
    decodeRequest w src = .instr (.cmd (w.extractLsb' 0 8)) := by rw [decodeRequest, h]; rfl

theorem decodeRequest_dat (h : ReqWord.op w = 2) (src : Source) :
    decodeRequest w src = decodeDat (ReqWord.count w) src := by rw [decodeRequest, h]; rfl

theorem decodeRequest_rst (h : ReqWord.op w = 3) (src : Source) : decodeRequest w src = .instr .rst := by
  rw [decodeRequest, h]; rfl

theorem decodeRequest_init (h : ReqWord.op w = 4) (src : Source) : decodeRequest w src = .instr .init := by
  rw [decodeRequest, h]; rfl

theorem decodeRequest_win (h : ReqWord.op w = 5) (src : Source) :
    decodeRequest w src = .instr (.win (w.extractLsb' 48 16) (w.extractLsb' 32 16) (w.extractLsb' 16 16)
      (w.extractLsb' 0 16)) := by rw [decodeRequest, h]; rfl

theorem decodeRequest_ramwr (h : ReqWord.op w = 6) (src : Source) : decodeRequest w src = .instr .ramwr := by
  rw [decodeRequest, h]; rfl

theorem decodeRequest_pack (h : ReqWord.op w = 7) (src : Source) :
    decodeRequest w src = .instr (.pack (w.extractLsb' 16 8) (w.extractLsb' 8 8) (w.extractLsb' 0 8)) := by
  rw [decodeRequest, h]; rfl

theorem decodeRequest_ser (h : ReqWord.op w = 8) (src : Source) :
    decodeRequest w src = decodeSer (ReqWord.count w) src := by rw [decodeRequest, h]; rfl

/-- R99: the codes 0x0 and 0x9 to 0xF are reserved. -/
theorem decodeRequest_reserved (h : ReqWord.op w = 0 ∨ 9 ≤ (ReqWord.op w).toNat) (src : Source) :
    decodeRequest w src = .reject .reservedOp := by
  unfold decodeRequest
  split
  case h_9 => rfl
  all_goals
    rename_i hop
    rw [← BitVec.toNat_inj, hop] at h
    exact absurd h (by decide)

/-! ### O1: the round trip -/

/-- A field at the low end of an argument that holds nothing else (formats B and P). -/
theorem arg_reqWord_setWidth {n : Nat} (op : BitVec 4) (v : BitVec n) (lo len : Nat) (h : lo + len ≤ 64) :
    (reqWord op (v.setWidth 64)).extractLsb' lo len = v.extractLsb' lo len := by
  rw [arg_reqWord _ _ _ _ h, BitVec.extractLsb'_setWidth_of_le h]

theorem toNat_ofNat_of_fits {n : Nat} (h : decide (n < 2 ^ 32) = true) : n = (BitVec.ofNat 32 n).toNat :=
  (Nat.mod_eq_of_lt (of_decide_eq_true h)).symm

variable (cfg : Cfg)

theorem decode_encode_cmd (b : Byte) : decode cfg (encode cfg (.cmd b)) = .instr (.cmd b) := by
  rw [encode, decode, decodeRequest_cmd (op_reqWord _ _), arg_reqWord_setWidth _ _ _ _ (by omega),
    BitVec.extractLsb'_eq_self]

theorem decode_encode_dat {bytes : List Byte} (h : (Instr.dat bytes).wellFormed = true) :
    decode cfg (encode cfg (.dat bytes)) = .instr (.dat bytes) := by
  rw [encode, decode, decodeRequest_dat (op_reqWord _ _), count_reqWord]
  exact if_pos (toNat_ofNat_of_fits h)

theorem decode_encode_win (x0 x1 y0 y1 : Word) :
    decode cfg (encode cfg (.win x0 x1 y0 y1)) = .instr (.win x0 x1 y0 y1) := by
  rw [encode, decode, decodeRequest_win (op_reqWord _ _), arg_reqWord _ _ 48 16 (by omega),
    arg_reqWord _ _ 32 16 (by omega), arg_reqWord _ _ 16 16 (by omega), arg_reqWord _ _ 0 16 (by omega)]
  have hx0 : (x0 ++ x1 ++ y0 ++ y1).extractLsb' 48 16 = x0 := by
    rw [BitVec.extractLsb'_append_eq_of_le (by omega), BitVec.extractLsb'_append_eq_of_le (by omega)]
    exact BitVec.extractLsb'_append_eq_left
  have hx1 : (x0 ++ x1 ++ y0 ++ y1).extractLsb' 32 16 = x1 := by
    rw [BitVec.extractLsb'_append_eq_of_le (by omega), BitVec.extractLsb'_append_eq_of_le (by omega)]
    exact BitVec.extractLsb'_append_eq_right
  have hy0 : (x0 ++ x1 ++ y0 ++ y1).extractLsb' 16 16 = y0 := by
    rw [BitVec.extractLsb'_append_eq_of_le (by omega)]
    exact BitVec.extractLsb'_append_eq_right
  have hy1 : (x0 ++ x1 ++ y0 ++ y1).extractLsb' 0 16 = y1 := BitVec.extractLsb'_append_eq_right
  exact congrArg Decoded.instr (by rw [hx0, hx1, hy0, hy1])

theorem decode_encode_pack (r g b : Byte) : decode cfg (encode cfg (.pack r g b)) = .instr (.pack r g b) := by
  rw [encode, decode, decodeRequest_pack (op_reqWord _ _), arg_reqWord_setWidth _ _ _ _ (by omega),
    arg_reqWord_setWidth _ _ _ _ (by omega), arg_reqWord_setWidth _ _ _ _ (by omega)]
  have hr : (r ++ g ++ b).extractLsb' 16 8 = r := by
    rw [BitVec.extractLsb'_append_eq_of_le (by omega)]
    exact BitVec.extractLsb'_append_eq_left
  have hg : (r ++ g ++ b).extractLsb' 8 8 = g := by
    rw [BitVec.extractLsb'_append_eq_of_le (by omega)]
    exact BitVec.extractLsb'_append_eq_right
  have hb : (r ++ g ++ b).extractLsb' 0 8 = b := BitVec.extractLsb'_append_eq_right
  rw [hr, hg, hb]

theorem decode_encode_ser {colors : List Word} (h : (Instr.ser colors).wellFormed = true) :
    decode cfg (encode cfg (.ser colors)) = .instr (.ser colors) := by
  rw [encode, decode, decodeRequest_ser (op_reqWord _ _), count_reqWord]
  exact if_pos (toNat_ofNat_of_fits h)

variable {cfg}

/-- Under a valid configuration no two opcodes are equal (R10), so the byte names its mnemonic. -/
theorem decode_encode_wire (hv : cfg.valid = true) (c : WireCommand) :
    decode cfg (encode cfg c.instr) = .instr c.instr := by
  simp only [encode_wire, decode, decodeWire_opcode hv]

/-- Settles O1: a request's code and fields read back as they were written, and a wire row's byte names its row. -/
theorem decodeOfEncodeGivesBack : Obligations.DecodeOfEncodeGivesBack := by
  intro cfg i hv hw
  cases i with
  | cmd b => exact decode_encode_cmd cfg b
  | dat bytes => exact decode_encode_dat cfg hw
  | rst => exact decodeRequest_rst (op_reqWord 3 0) .none
  | init => exact decodeRequest_init (op_reqWord 4 0) .none
  | win x0 x1 y0 y1 => exact decode_encode_win cfg x0 x1 y0 y1
  | ramwr => exact decodeRequest_ramwr (op_reqWord 6 0) .none
  | pack r g b => exact decode_encode_pack cfg r g b
  | ser colors => exact decode_encode_ser cfg hw
  | swreset => exact decode_encode_wire hv .swreset
  | slpout => exact decode_encode_wire hv .slpout
  | colmod => exact decode_encode_wire hv .colmod
  | madctl => exact decode_encode_wire hv .madctl
  | porctrl => exact decode_encode_wire hv .porctrl
  | gctrl => exact decode_encode_wire hv .gctrl
  | vcoms => exact decode_encode_wire hv .vcoms
  | invon => exact decode_encode_wire hv .invon
  | noron => exact decode_encode_wire hv .noron
  | dispon => exact decode_encode_wire hv .dispon
  | caset => exact decode_encode_wire hv .caset
  | raset => exact decode_encode_wire hv .raset
  | ramwrWire => exact decode_encode_wire hv .ramwr

/-! ### O2: the bits a format names -/

/-- Words that agree on their low bits agree on every field among them. -/
theorem field_eq_of_low_eq {w w' : ReqWord} {n : Nat} (h : w.extractLsb' 0 n = w'.extractLsb' 0 n) (lo len : Nat)
    (hle : lo + len ≤ n) : w.extractLsb' lo len = w'.extractLsb' lo len := by
  rw [← BitVec.extractLsb'_extractLsb'_of_le hle, h, BitVec.extractLsb'_extractLsb'_of_le hle]

/-- Settles O2: each code's decoding is an equation in the fields its format names. -/
theorem decoderReadsOnlyNamedBits : Obligations.DecoderReadsOnlyNamedBits := by
  intro w w' src hop
  refine ⟨fun i => Machine.decodeRequest_wellFormed, fun h hb => ?_, fun h hcount => ?_, fun h => ?_, fun h hrgb => ?_⟩
  · rw [decodeRequest_cmd h, decodeRequest_cmd (hop ▸ h), hb]
  · have hc : ReqWord.count w = ReqWord.count w' := hcount
    rcases h with h | h
    · rw [decodeRequest_dat h, decodeRequest_dat (hop ▸ h), hc]
    · rw [decodeRequest_ser h, decodeRequest_ser (hop ▸ h), hc]
  · rcases h with h | h | h
    · rw [decodeRequest_rst h, decodeRequest_rst (hop ▸ h)]
    · rw [decodeRequest_init h, decodeRequest_init (hop ▸ h)]
    · rw [decodeRequest_ramwr h, decodeRequest_ramwr (hop ▸ h)]
  · rw [decodeRequest_pack h, decodeRequest_pack (hop ▸ h), field_eq_of_low_eq hrgb 16 8 (by omega),
      field_eq_of_low_eq hrgb 8 8 (by omega), field_eq_of_low_eq hrgb 0 8 (by omega)]

/-! ### O3: sample words -/

/-- Settles O3: the decoder runs on the nine words. -/
theorem sampleWordsDecode : Obligations.SampleWordsDecode := by
  unfold Obligations.SampleWordsDecode
  decide

end Sys2Proof
end

section
/-! PROOFS. The step of a ready (O4, O5), a halted (O7) and a busy TPC (O8), the wire mnemonics (O12), and that every
instruction answers (O27), and the host gets one response if it is accepted (O26). -/

namespace Sys2Proof.Machine

variable {s t : State}

/-! ### O4 and O5: what a ready TPC finds at its port -/

theorem consume_of_port {p : PortItem} {rest : List PortItem} (h : s.port = p :: rest) :
    s.consume = { s with port := rest } := by rw [State.consume, h, List.tail_cons]

theorem fetch_operation {e : Encoded} {rest : List PortItem} (h : s.port = .operation e :: rest) :
    fetch s = fetchedOf (decode s.cfg e) := by rw [fetch, h]

theorem serve_reserved {start : Instr → State → Host.Outcome State Fault Refusal} (h : s.ready = true)
    (hf : fetch s = .reserved) : serve start s = .next (s.consume.respond .refused) := by
  simp [serve, not_halted_of_ready h, (ready_iff.mp h).2.2, hf]

/-- Settles O4: what decodes to an instruction is fetched as that instruction, and a ready TPC starts it. -/
theorem stepRunsDecodedInstruction : Obligations.StepRunsDecodedInstruction := by
  intro s e rest i hr hport hdec
  have hf : fetch s = .runs i := by rw [fetch_operation hport, hdec, fetchedOf]
  rw [step, serve_runs hr hf, consume_of_port hport]

/-- Settles O5: a reserved code is fetched as such, and a ready TPC answers it. -/
theorem reservedCodeIsRefused : Obligations.ReservedCodeIsRefused := by
  intro s w src rest hr hport hcode
  have hf : fetch s = .reserved := by
    rw [fetch_operation hport, decode, decodeRequest_reserved hcode, fetchedOf]
  rw [step, serve_reserved hr hf, consume_of_port hport]
  rfl

/-! ### O7 and O8: a TPC that is not ready -/

theorem pack_or_not (i : Instr) : (∃ r g b, i = .pack r g b) ∨ ∀ r g b, i ≠ .pack r g b := by
  cases i with
  | pack r g b => exact .inl ⟨r, g, b, rfl⟩
  | _ => exact .inr fun _ _ _ => nofun

/-- R92, R235 (log 9): an instruction that is not accepted changes nothing. -/
theorem exec_of_not_ready (i : Instr) (h : s.ready = false) : exec i s = .next s := by
  rcases pack_or_not i with ⟨r, g, b, rfl⟩ | hp
  · exact whenReady_false h
  · rw [exec_eq_drive i hp, whenReady_false h]

theorem not_ready_of_halted (h : s.halted = true) : s.ready = false :=
  Bool.eq_false_iff.mpr fun hr => absurd ((not_halted_of_ready hr).symm.trans h) (by decide)

theorem not_ready_of_busy (h : s.busy = true) : s.ready = false :=
  Bool.eq_false_iff.mpr fun hr => absurd ((ready_iff.mp hr).2.2.symm.trans h) (by decide)

/-- Settles O7: a halted TPC serves nothing and is not ready. -/
theorem haltedChangesNothing : Obligations.HaltedChangesNothing := by
  intro s h
  exact ⟨serve_halted h, fun i => exec_of_not_ready i (not_ready_of_halted h)⟩

/-- Settles O8: a busy TPC is not ready, and its step is the micro-step. -/
theorem busyRunsOneMicroOperation : Obligations.BusyRunsOneMicroOperation := by
  intro s hh hb
  have hstep : step s = microStep s := serve_busy hh hb
  refine ⟨fun i => exec_of_not_ready i (not_ready_of_busy hb), fun m hm => ?_, fun hlast => ?_⟩
  · rw [hstep, microStep_op hm]
  · rw [hstep, microStep_last (List.getElem?_eq_none hlast.ge)]
    rfl

/-! ### O12: the wire mnemonics -/

/-- R103: a wire mnemonic means `CMD` with its opcode parameter. -/
theorem exec_wire (c : WireCommand) (s : State) : exec c.instr s = s.sendCommand (s.cfg.opcode c) := by
  cases c <;> rfl

/-- R120: one command byte on a good bus. -/
theorem sendCommand_good (b : Byte) (hr : s.ready = true) (hbus : s.busErr s.xcnt = false) :
    s.sendCommand b = .next
      { s with
        cmdb := b, opr := 1, seqpc := 1, busy := false, dc := 0, cs := 1, xcnt := s.xcnt + 1
        trace := s.trace ++ [.xfer 0 [b]], panel := s.panel.onEvent s.cfg (.xfer 0 [b])
        responses := s.responses ++ [.done] } := by
  have hf := (ready_iff.mp hr).2.1
  have hrun := run_xc_good (s := (s.accept 1).latchByte b) (b := b) hf hbus
  have hops : runOps ((s.accept 1).latchByte b).sequence ((s.accept 1).latchByte b) = _ :=
    runOps_cons_next (ms := []) hrun hf
  rw [State.sendCommand, whenReady_true hr, drive_of_runOps hops hf]
  rfl

/-- Settles O12: `exec_wire` and `sendCommand_good`. -/
theorem wireMnemonicsSendTheirOpcode : Obligations.WireMnemonicsSendTheirOpcode := by
  intro c s hr hbus
  rw [exec_wire, sendCommand_good _ hr hbus]

/-! ### O27: no list holds an empty transfer -/

/-- A micro-operation answers if it transfers nothing, or at least one byte (R122). -/
theorem run_answers {m : MicroOp} (h : ∀ dc bytes, m.transfer s = some (dc, bytes) → bytes ≠ []) :
    ∃ t, m.run s = .next t := by
  cases m with
  | xc b =>
    obtain ⟨t, ht⟩ := xfer_answers { s with cmdb := b } 0 (h 0 [b] rfl)
    exact ⟨_, congrArg advance ht⟩
  | xd bytes =>
    obtain ⟨t, ht⟩ := xfer_answers s 1 (h 1 bytes rfl)
    exact ⟨_, congrArg advance ht⟩
  | xs =>
    obtain ⟨t, ht⟩ := xfer_answers s 1 (h 1 _ rfl)
    exact ⟨_, congrArg (advance ∘ clearSlen) ht⟩
  | _ => exact ⟨_, rfl⟩

/-- A micro-operation that in no state transfers an empty list: it is not `XS`, whose bytes are the state's, and not an
`XD` of nothing. -/
def MicroOp.neverEmpty : MicroOp → Bool
  | .xd bytes => !bytes.isEmpty
  | .xs => false
  | .xc _ => true
  | .stage _ => true
  | .resl => true
  | .resh => true
  | .wait _ => true
  | .blset _ => true
  | .pst _ => true

theorem run_answers_of_neverEmpty {m : MicroOp} (h : m.neverEmpty = true) (s : State) : ∃ t, m.run s = .next t := by
  refine run_answers fun dc bytes ht => ?_
  cases m with
  | xc b =>
    cases ht
    exact List.cons_ne_nil b []
  | xd bytes =>
    cases ht
    simpa [MicroOp.neverEmpty] using h
  | xs => cases h
  | _ => cases ht

theorem runOps_answers {ms : List MicroOp} (h : ms.all MicroOp.neverEmpty = true) (s : State) :
    ∃ t, runOps ms s = .next t := by
  induction ms generalizing s with
  | nil => exact ⟨s, rfl⟩
  | cons m ms ih =>
    obtain ⟨hm, hms⟩ := Bool.and_eq_true_iff.mp (List.all_cons ▸ h)
    obtain ⟨u, hu⟩ := run_answers_of_neverEmpty hm s
    cases hf : u.fault
    · rw [runOps_cons_next hu hf]
      exact ih hms u
    · exact ⟨u, runOps_cons_fault hu hf⟩

/-- `STAGE(k)` fills the scratch buffer for the `XS` after it, since no chunk is empty (R178). -/
theorem runOps_chunks_answers {ks : List Nat} (hks : ∀ k ∈ ks, k < chunkCount s.cnt.toNat) (hf : s.fault = false) :
    ∃ t, runOps (ks.flatMap fun k => [.stage k, .xs]) s = .next t := by
  induction ks generalizing s with
  | nil => exact ⟨s, rfl⟩
  | cons k ks ih =>
    rw [List.flatMap_cons, List.cons_append, List.cons_append, List.nil_append,
      runOps_cons_next (run_stage hf) hf]
    have hpos := chunkSize_pos (hks k List.mem_cons_self)
    obtain ⟨v, hv⟩ := run_answers (s := { s.stage k with seqpc := s.seqpc + 1 }) (m := .xs) fun dc bytes h => by
      cases h
      apply List.ne_nil_of_length_pos
      rw [Scratch.length_readFrom]
      exact Nat.mul_pos Nat.two_pos hpos
    cases hvf : v.fault
    · obtain ⟨-, -, hcnt, -⟩ := run_frame (s := { s.stage k with seqpc := s.seqpc + 1 }) hf hv
      rw [runOps_cons_next hv hvf]
      exact ih (fun j hj => hcnt ▸ hks j (List.mem_cons_of_mem k hj)) hvf
    · exact ⟨v, runOps_cons_fault hv hvf⟩

/-- R126: what `DAT` sends it sends only if there is something to send. -/
theorem seqDat_neverEmpty (bytes : List Byte) (s : State) :
    (seqDat (s.latchBytes bytes)).all MicroOp.neverEmpty = true := by
  unfold seqDat
  split
  · rfl
  · rename_i hcnt
    have hne : bytes ≠ [] := fun h => hcnt (h ▸ rfl)
    have hcount : (BitVec.ofNat 32 bytes.length).toNat ≠ 0 := fun h => hcnt (BitVec.eq_of_toNat_eq h)
    have hsent : bytes.take (BitVec.ofNat 32 bytes.length).toNat ≠ [] := by
      rw [ne_eq, List.take_eq_nil_iff, not_or]
      exact ⟨hcount, hne⟩
    simpa [MicroOp.neverEmpty] using hsent

theorem drive_of_runOps_answers (h : ∃ t, runOps s.sequence s = .next t) : ∃ t, s.drive = .next t := by
  obtain ⟨u, hu⟩ := h
  exact ⟨_, congrArg finish hu⟩

/-- The list that an accepted instruction starts has no empty transfer, whatever its operands. -/
theorem accepted_answers {i : Instr} (hf : s.fault = false) (hp : ∀ r g b, i ≠ .pack r g b) :
    ∃ t, (accepted i s).drive = .next t := by
  apply drive_of_runOps_answers
  cases i with
  | pack r g b => exact absurd rfl (hp r g b)
  | dat bytes => exact runOps_answers (seqDat_neverEmpty bytes (s.accept 2)) _
  | ser colors =>
    exact runOps_chunks_answers (s := (s.accept 8).latchColors colors) (fun k => List.mem_range.mp) hf
  | _ => exact runOps_answers rfl _

/-- Settles O27: `accepted_answers` where the request is accepted; nothing happens where it is not. -/
theorem everyInstructionAnswers : Obligations.EveryInstructionAnswers := by
  intro i s
  cases hr : s.ready
  · exact ⟨s, exec_of_not_ready i hr⟩
  · rcases pack_or_not i with ⟨r, g, b, rfl⟩ | hp
    · exact ⟨_, whenReady_true hr⟩
    · rw [exec_eq_drive i hp, whenReady_true hr]
      exact accepted_answers (ready_iff.mp hr).2.1 hp

/-! ### O26: one response per accepted request -/

theorem accepted_responses {i : Instr} (hp : ∀ r g b, i ≠ .pack r g b) (s : State) :
    (accepted i s).responses = s.responses := by
  cases i with
  | pack r g b => exact absurd rfl (hp r g b)
  | _ => rfl

/-- While an operation runs, TPC answers nothing but a fault (R231). -/
theorem runOps_responses {ms : List MicroOp} (hf : s.fault = false) (h : runOps ms s = .next t) :
    t.responses = s.responses ++ if t.fault then [.faulted] else [] := by
  refine runOps_keeps (P := fun u => u.responses = s.responses ++ if u.fault then [.faulted] else [])
    (fun m u v hu huf hm => ?_) (by simp [hf]) hf h
  obtain ⟨hvf, -, -, hv⟩ | ⟨hvf, -, -, hv⟩ := run_seqpc huf hm <;> simp [hvf, hv, hu, huf]

/-- An operation ends with one response, `FAULTED` or `DONE` (R95, R97, R231). -/
theorem drive_responses (hf : s.fault = false) (h : s.drive = .next t) :
    t.responses = s.responses ++ [if t.fault then .faulted else .done] := by
  obtain ⟨u, hu, ⟨huf, rfl⟩ | ⟨huf, rfl⟩⟩ := drive_cases h
  · simp [runOps_responses hf hu, huf]
  · simp [State.complete, runOps_responses hf hu, huf]

/-- Settles O26: `PACK` answers at once; every other operation as `drive_responses` says. -/
theorem oneResponsePerAcceptedRequest : Obligations.OneResponsePerAcceptedRequest := by
  intro i s t hr h
  have hf := (ready_iff.mp hr).2.1
  rcases exec_cases h with ⟨hnot, -⟩ | ⟨-, r, g, b, rfl, rfl⟩ | ⟨-, hp, hd⟩
  · exact absurd (hnot.symm.trans hr) (by decide)
  · simp [hf]
  · rw [drive_responses ((accepted_fault i s).trans hf) hd, accepted_responses hp]
    cases i with
    | pack r g b => exact absurd rfl (hp r g b)
    | _ => rfl

end Sys2Proof.Machine
end

section
/-! PROOFS. The Transport: the transfer primitive (O10), `CMD` (O11), `DAT` (O14, O15, O16), and what the commands (O34)
and `DAT` (O35) leave unchanged. -/

namespace Sys2Proof.Machine

variable {s t : State}

/-! ### O10 and O11: one transfer, one command byte -/

/-- Settles O10: `xfer_good` and `xfer_bad`, with the state they answer written out field by field. -/
theorem transferCompletesOrFaults : Obligations.TransferCompletesOrFaults := by
  intro s dc bytes hne
  exact ⟨fun hlen hbus => xfer_good hne hlen hbus, fun hbad => xfer_bad hne hbad⟩

/-- Settles O11: `CMD` is one command byte, which `sendCommand_good` sends. -/
theorem cmdSendsOneByte : Obligations.CmdSendsOneByte := by
  intro b s hr hbus
  exact sendCommand_good b hr hbus

/-! ### O14 to O16: what `DAT` sends -/

/-- R124, R233: a data transfer that fails leaves `SEQPC` at its own step. -/
theorem run_xd_bad {bytes : List Byte} (hne : bytes ≠ [])
    (hbad : Config.maxXferBytes < bytes.length ∨ s.busErr s.xcnt = true) :
    (MicroOp.xd bytes).run s = .next ((s.started 1).failTransfer s.xcnt 1 bytes) := by
  rw [MicroOp.run, MicroOp.effect, xfer_bad hne hbad, advance_faulted (failTransfer_fault _ _ _ _)]

/-- An operation that faults ends as the fault left it (R231). -/
theorem drive_of_fault {u : State} (h : runOps s.sequence s = .next u) (hf : u.fault = true) :
    s.drive = .next u := by rw [State.drive, h, finish_next, if_pos hf]

/-- R123: of a stream whose length a count can state, `DAT` sends every byte, in one transfer. -/
theorem sequence_accepted_dat {bytes : List Byte} (hne : bytes ≠ []) (hfits : bytes.length < 2 ^ 32) (s : State) :
    (accepted (.dat bytes) s).sequence = [.xd bytes] := by
  have hcount : (BitVec.ofNat 32 bytes.length).toNat = bytes.length :=
    (toNat_ofNat_of_fits (decide_eq_true hfits)).symm
  have hcnt : BitVec.ofNat 32 bytes.length ≠ 0 := fun h =>
    hne (List.length_eq_zero_iff.mp (hcount.symm.trans (congrArg BitVec.toNat h)))
  have hseq : (accepted (.dat bytes) s).sequence = [.xd (bytes.take (BitVec.ofNat 32 bytes.length).toNat)] :=
    (sequence_dat rfl).trans (if_neg hcnt)
  rw [hseq, hcount, List.take_length]

/-- Where it is accepted, `DAT` drives its accepted request. -/
theorem exec_dat (bytes : List Byte) (hr : s.ready = true) :
    exec (.dat bytes) s = (accepted (.dat bytes) s).drive := whenReady_true hr

/-- Settles O14: the one micro-operation of `sequence_accepted_dat` is a good data transfer. -/
theorem datSendsOneTransfer : Obligations.DatSendsOneTransfer := by
  intro bytes s hne hlen hr hbus
  have hf := (ready_iff.mp hr).2.1
  have hops := runOps_cons_next (ms := []) (run_xd_good (s := accepted (.dat bytes) s) hne hlen hf hbus) hf
  rw [← sequence_accepted_dat hne (by omega) s] at hops
  rw [exec_dat bytes hr, drive_of_runOps hops hf]
  rfl

/-- Settles O15: the list of an empty `DAT` is empty, so that completion follows acceptance. -/
theorem datOfNothingSendsNothing : Obligations.DatOfNothingSendsNothing := by
  intro s hr
  have hops : runOps (accepted (.dat []) s).sequence (accepted (.dat []) s) = .next (accepted (.dat []) s) := rfl
  rw [exec_dat [] hr, drive_of_runOps hops (ready_iff.mp hr).2.1]
  rfl

/-- Settles O16: the one micro-operation of `sequence_accepted_dat` fails by its length alone. -/
theorem datTooLongFaults : Obligations.DatTooLongFaults := by
  intro bytes s hlong hfits hr
  have hne : bytes ≠ [] := List.ne_nil_of_length_pos (by omega)
  have hops := runOps_cons_fault (ms := []) (run_xd_bad (s := accepted (.dat bytes) s) hne (.inl hlong)) rfl
  rw [← sequence_accepted_dat hne hfits s] at hops
  rw [exec_dat bytes hr, drive_of_fault hops rfl]
  rfl

/-! ### O34 and O35: what the Transport leaves unchanged -/

/-- The state with every element blanked that acceptance, a data transfer, a fault or completion may write. Two states
that agree in this agree in every other element. -/
def State.offWire (s : State) : State :=
  { s with
    cs := 0, dc := 0, busy := false, fault := false, finfo := { cause := 0, xfer := 0, dc := 0, op := 0, step := 0 }
    xcnt := 0, seqpc := 0, opr := 0, trace := [], responses := [], panel := Panel.unspecified }

/-- What each micro-operation of a list keeps, the list keeps. -/
theorem runOps_keeps_of_mem {P : State → Prop} {ms : List MicroOp}
    (hrun : ∀ m ∈ ms, ∀ u v, P u → u.fault = false → m.run u = .next v → P v)
    (hs : P s) (hf : s.fault = false) (h : runOps ms s = .next t) : P t := by
  induction ms generalizing s with
  | nil => exact Host.Outcome.next.inj h ▸ hs
  | cons m ms ih =>
    obtain ⟨u, hm, hrest⟩ := runOps_cons_cases h
    have hu : P u := hrun m List.mem_cons_self _ _ hs hf hm
    obtain ⟨-, rfl⟩ | ⟨huf, hr⟩ := hrest
    · exact hu
    · exact ih (fun n hn => hrun n (List.mem_cons_of_mem m hn)) hu huf hr

/-- What completion keeps too, driving the operation keeps. -/
theorem drive_keeps {P : State → Prop}
    (hrun : ∀ m ∈ s.sequence, ∀ u v, P u → u.fault = false → m.run u = .next v → P v)
    (hdone : ∀ u, P u → P u.complete) (hs : P s) (hf : s.fault = false) (h : s.drive = .next t) : P t := by
  obtain ⟨u, hu, ⟨-, rfl⟩ | ⟨-, rfl⟩⟩ := drive_cases h
  · exact runOps_keeps_of_mem hrun hs hf hu
  · exact hdone u (runOps_keeps_of_mem hrun hs hf hu)

/-- A data transfer, good or failed, writes nothing off the wire. -/
theorem run_xd_offWire {bytes : List Byte} (hf : s.fault = false) (h : (MicroOp.xd bytes).run s = .next t) :
    t.offWire = s.offWire := by
  rcases run_cases hf h with ⟨hq, -⟩ | ⟨dc, bytes, -, -, ⟨-, -, rfl⟩ | ⟨-, rfl⟩⟩
  · exact nomatch hq
  · rfl
  · rfl

/-- A command transfer, good or failed, writes `CMDB` and nothing else off the wire. -/
theorem run_xc_offWire {b : Byte} (hf : s.fault = false) (h : (MicroOp.xc b).run s = .next t) :
    t.offWire = { s.offWire with cmdb := b } := by
  rcases run_cases hf h with ⟨hq, -⟩ | ⟨dc, bytes, -, -, ⟨-, -, rfl⟩ | ⟨-, rfl⟩⟩
  · exact nomatch hq
  · rfl
  · rfl

/-- R103, R120, R161: a command's request latches at most `CMDB`, and its list is one command transfer. -/
theorem accepted_command {i : Instr} (hi : (∃ b, i = .cmd b) ∨ i = .ramwr ∨ ∃ c : WireCommand, i = c.instr)
    (s : State) :
    (∃ b, (accepted i s).sequence = [.xc b]) ∧ ∃ b, (accepted i s).offWire = { s.offWire with cmdb := b } := by
  rcases hi with ⟨b, rfl⟩ | rfl | ⟨c, rfl⟩
  · exact ⟨⟨b, rfl⟩, b, rfl⟩
  · exact ⟨⟨s.cfg.opcRamwr, rfl⟩, s.cmdb, rfl⟩
  · cases c <;> exact ⟨⟨_, rfl⟩, _, rfl⟩

/-- Off the wire a command changes `CMDB` alone, whether it is accepted or not, completes or faults. -/
theorem exec_command_offWire {i : Instr} (hi : (∃ b, i = .cmd b) ∨ i = .ramwr ∨ ∃ c : WireCommand, i = c.instr)
    (h : exec i s = .next t) : ∃ b, t.offWire = { s.offWire with cmdb := b } := by
  obtain ⟨⟨b, hseq⟩, hacc⟩ := accepted_command hi s
  rcases exec_cases h with ⟨-, rfl⟩ | ⟨-, r, g, b, rfl, -⟩ | ⟨hr, -, hd⟩
  · exact ⟨t.cmdb, rfl⟩
  · rcases hi with ⟨_, hi⟩ | hi | ⟨c, hi⟩
    · exact nomatch hi
    · exact nomatch hi
    · cases c <;> exact nomatch hi
  · refine drive_keeps (P := fun u => ∃ b, u.offWire = { s.offWire with cmdb := b }) (fun m hm u v hu huf hv => ?_)
      (fun _ hu => hu) hacc ((accepted_fault i s).trans (ready_iff.mp hr).2.1) hd
    obtain ⟨_, hu⟩ := hu
    obtain rfl : m = .xc b := List.mem_singleton.mp (hseq ▸ hm)
    exact ⟨b, by rw [run_xc_offWire huf hv, hu]⟩

/-- R123, R126: the list of `DAT` holds nothing but a data transfer. -/
theorem mem_seqDat {m : MicroOp} (h : m ∈ seqDat s) : ∃ bytes, m = .xd bytes := by
  unfold seqDat at h
  split at h
  · exact absurd h List.not_mem_nil
  · exact ⟨_, List.mem_singleton.mp h⟩

/-- Off the wire `DAT` changes `CNT` and its stream alone, whether it is accepted or not, completes or faults. -/
theorem exec_dat_offWire {bytes : List Byte} (h : exec (.dat bytes) s = .next t) :
    ∃ n l, t.offWire = { s.offWire with cnt := n, srcb := l } := by
  rcases exec_cases h with ⟨-, rfl⟩ | ⟨-, r, g, b, hi, -⟩ | ⟨hr, -, hd⟩
  · exact ⟨t.cnt, t.srcb, rfl⟩
  · exact nomatch hi
  · refine ⟨BitVec.ofNat 32 bytes.length, bytes, ?_⟩
    refine drive_keeps (P := fun u => u.offWire = (accepted (.dat bytes) s).offWire) (fun m hm u v hu huf hv => ?_)
      (fun _ hu => hu) rfl (ready_iff.mp hr).2.1 hd
    obtain ⟨sent, rfl⟩ := mem_seqDat (s := accepted (.dat bytes) s) hm
    rw [run_xd_offWire huf hv, hu]

/-- Settles O34: `exec_command_offWire`, read field by field. -/
theorem frameOfCommands : Obligations.FrameOfCommands := by
  intro i s t hi h
  obtain ⟨b, hoff⟩ := exec_command_offWire hi h
  have agree : ∀ {α : Type} (f : State → α), f t.offWire = f { s.offWire with cmdb := b } :=
    fun f => congrArg f hoff
  exact ⟨agree State.cfg, agree State.res, agree State.pstate, agree State.bld, agree State.life, agree State.x0,
    agree State.x1, agree State.y0, agree State.y1, agree State.cr, agree State.cg, agree State.cb, agree State.pk,
    agree State.cnt, agree State.slen, agree State.srcb, agree State.srcc, agree State.port, agree State.busErrs,
    fun a => agree fun u => Scratch.read u.scr a⟩

/-- Settles O35: `exec_dat_offWire`, read field by field. -/
theorem frameOfDat : Obligations.FrameOfDat := by
  intro bytes s t h
  obtain ⟨n, l, hoff⟩ := exec_dat_offWire h
  have agree : ∀ {α : Type} (f : State → α), f t.offWire = f { s.offWire with cnt := n, srcb := l } :=
    fun f => congrArg f hoff
  exact ⟨agree State.cfg, agree State.res, agree State.pstate, agree State.bld, agree State.life, agree State.x0,
    agree State.x1, agree State.y0, agree State.y1, agree State.cr, agree State.cg, agree State.cb, agree State.pk,
    agree State.cmdb, agree State.slen, agree State.srcc, agree State.port, agree State.busErrs,
    fun a => agree fun u => Scratch.read u.scr a⟩

end Sys2Proof.Machine
end

section
/-! PROOFS. Lists of micro-operations whose bytes are fixed, run on a good bus to their end, and run up to the transfer
that fails. -/

namespace Sys2Proof.Machine

variable {s t : State}

/-! ### Appending events -/

/-- `s` with more events in `TRACE`, each seen by the panel (R13, R205). -/
def State.log (s : State) (es : List Event) : State :=
  { s with trace := s.trace ++ es, panel := s.panel.after s.cfg es }

theorem log_log (s : State) (es fs : List Event) : (s.log es).log fs = s.log (es ++ fs) := by
  simp only [State.log, List.append_assoc, after_append]

@[simp] theorem log_nil (s : State) : s.log [] = s := by
  simp only [State.log, List.append_nil, after_nil]

/-- The fault entry after a failed transfer adds its event to those before it. -/
theorem failTransfer_log (s : State) (es : List Event) (k : Nat) (dc : Bit) (bytes : List Byte) :
    (s.log es).failTransfer k dc bytes
      = (State.log { s with cs := Config.csAfterFault k } (es ++ [.xferFail dc bytes])).raiseBusFault k dc :=
  congrArg (State.raiseBusFault · k dc) (log_log { s with cs := Config.csAfterFault k } es [.xferFail dc bytes])

/-! ### Micro-operations with fixed bytes -/

/-- A micro-operation that does not use the scratch buffer, and whose transfer, if it is one, is neither empty nor too
long (R122, R124). -/
def MicroOp.fixed : MicroOp → Bool
  | .xd bytes => !bytes.isEmpty && decide (bytes.length ≤ Config.maxXferBytes)
  | .stage _ => false
  | .xs => false
  | .xc _ => true
  | .resl => true
  | .resh => true
  | .wait _ => true
  | .blset _ => true
  | .pst _ => true

/-- The events of a micro-operation with fixed bytes that completes (R96). -/
def MicroOp.events : MicroOp → List Event
  | .xc b => [.xfer 0 [b]]
  | .xd bytes => [.xfer 1 bytes]
  | .resl => [.res 0]
  | .resh => [.res 1]
  | .wait ms => [.wait ms]
  | .blset duty => [.bl duty]
  | .pst _ => []
  | .stage _ => []
  | .xs => []

/-- What a micro-operation with fixed bytes that completes writes outside `TRACE` and the panel (R96). -/
def MicroOp.registers (s : State) : MicroOp → State
  | .xc b => { s with cmdb := b, dc := 0, cs := 1, xcnt := s.xcnt + 1, seqpc := s.seqpc + 1 }
  | .xd _ => { s with dc := 1, cs := 1, xcnt := s.xcnt + 1, seqpc := s.seqpc + 1 }
  | .resl => { s with res := 0, seqpc := s.seqpc + 1 }
  | .resh => { s with res := 1, seqpc := s.seqpc + 1 }
  | .wait _ => { s with seqpc := s.seqpc + 1 }
  | .blset duty => { s with bld := some duty, seqpc := s.seqpc + 1 }
  | .pst p => { s with pstate := p, seqpc := s.seqpc + 1 }
  | .stage _ => s
  | .xs => s

/-- How many transfers a list of micro-operations with fixed bytes performs. -/
def transferCount (ms : List MicroOp) : Nat := (ms.flatMap MicroOp.events).countP Event.isTransfer

theorem transferCount_cons (m : MicroOp) (ms : List MicroOp) :
    transferCount (m :: ms) = transferCount [m] + transferCount ms := by
  simp [transferCount]

@[simp] theorem registers_fault (m : MicroOp) (s : State) : (m.registers s).fault = s.fault := by cases m <;> rfl
@[simp] theorem registers_busErrs (m : MicroOp) (s : State) : (m.registers s).busErrs = s.busErrs := by
  cases m <;> rfl

theorem registers_xcnt (m : MicroOp) (s : State) : (m.registers s).xcnt = s.xcnt + transferCount [m] := by
  cases m <;> rfl

theorem registers_log (m : MicroOp) (s : State) (es : List Event) :
    m.registers (s.log es) = (m.registers s).log es := by cases m <;> rfl

theorem foldl_registers_log (ms : List MicroOp) (s : State) (es : List Event) :
    ms.foldl MicroOp.registers (s.log es) = (ms.foldl MicroOp.registers s).log es := by
  induction ms generalizing s with
  | nil => rfl
  | cons m ms ih => rw [List.foldl_cons, registers_log, ih, List.foldl_cons]

theorem foldl_registers_fault (ms : List MicroOp) (s : State) :
    (ms.foldl MicroOp.registers s).fault = s.fault := by
  induction ms generalizing s with
  | nil => rfl
  | cons m ms ih => rw [List.foldl_cons, ih, registers_fault]

theorem foldl_registers_busErrs (ms : List MicroOp) (s : State) :
    (ms.foldl MicroOp.registers s).busErrs = s.busErrs := by
  induction ms generalizing s with
  | nil => rfl
  | cons m ms ih => rw [List.foldl_cons, ih, registers_busErrs]

theorem foldl_registers_xcnt (ms : List MicroOp) (s : State) :
    (ms.foldl MicroOp.registers s).xcnt = s.xcnt + transferCount ms := by
  induction ms generalizing s with
  | nil => rfl
  | cons m ms ih => rw [List.foldl_cons, ih, registers_xcnt, transferCount_cons m ms, Nat.add_assoc]

/-! ### The good bus -/

theorem busGoodFor_one (h : s.busErr s.xcnt = false) : s.busGoodFor 1 := by
  intro j hj
  obtain rfl : j = 0 := Nat.lt_one_iff.mp hj
  exact h

/-- `k` transfers on, the bus is good for `k` transfers less. -/
theorem busGoodFor_of_xcnt {k n : Nat} (hbus : t.busErrs = s.busErrs) (hx : t.xcnt = s.xcnt + k)
    (h : s.busGoodFor (k + n)) : t.busGoodFor n := by
  intro j hj
  have hj' := h (k + j) (Nat.add_lt_add_left hj k)
  rwa [State.busErr, hbus, hx, Nat.add_assoc]

/-! ### Runs -/

/-- A micro-operation with fixed bytes completes on a good bus. -/
theorem run_fixed_good {m : MicroOp} (hm : m.fixed = true) (hf : s.fault = false)
    (hbus : s.busGoodFor (transferCount [m])) : m.run s = .next ((m.registers s).log m.events) := by
  cases m with
  | xc b => exact run_xc_good hf (hbus 0 Nat.one_pos)
  | xd bytes =>
    simp only [MicroOp.fixed, Bool.and_eq_true, Bool.not_eq_true', List.isEmpty_eq_false_iff, decide_eq_true_eq] at hm
    exact run_xd_good hm.1 hm.2 hf (hbus 0 Nat.one_pos)
  | resl => exact run_resl hf
  | resh => exact run_resh hf
  | wait ms => exact run_wait hf
  | blset duty => exact run_blset hf
  | pst p => rw [MicroOp.events, log_nil]; exact run_pst hf
  | stage k => exact nomatch hm
  | xs => exact nomatch hm

/-- So does a list of them: its registers one after the other, its events in order. -/
theorem runOps_fixed_good {ms : List MicroOp} (hms : ms.all MicroOp.fixed = true) (hf : s.fault = false)
    (hbus : s.busGoodFor (transferCount ms)) :
    runOps ms s = .next ((ms.foldl MicroOp.registers s).log (ms.flatMap MicroOp.events)) := by
  induction ms generalizing s with
  | nil => rw [List.flatMap_nil, log_nil]; rfl
  | cons m ms ih =>
    obtain ⟨hm, hms⟩ := Bool.and_eq_true_iff.mp (List.all_cons ▸ hms)
    rw [transferCount_cons] at hbus
    have hrun := run_fixed_good hm hf fun j hj => hbus j (Nat.lt_add_right _ hj)
    have hf' : ((m.registers s).log m.events).fault = false := (registers_fault m s).trans hf
    have hbus' : ((m.registers s).log m.events).busGoodFor (transferCount ms) :=
      busGoodFor_of_xcnt (registers_busErrs m s) (registers_xcnt m s) hbus
    rw [runOps_cons_next hrun hf', ih hms hf' hbus', foldl_registers_log, log_log, List.foldl_cons,
      List.flatMap_cons]

/-- A transfer the bus fails raises the fault, whichever micro-operation performs it (R231). -/
theorem run_transfer_bad {m : MicroOp} {dc : Bit} {bytes : List Byte} (hf : s.fault = false)
    (hm : m.transfer s = some (dc, bytes)) (hne : bytes ≠ []) (hbad : s.busErr s.xcnt = true) :
    m.run s = .next (((m.latched s).started dc).failTransfer s.xcnt dc bytes) := by
  obtain ⟨t, ht⟩ := run_answers (s := s) (m := m) fun dc' bytes' h => by
    obtain ⟨-, rfl⟩ := Prod.mk.inj (Option.some.inj (hm.symm.trans h))
    exact hne
  rcases run_cases hf ht with ⟨hq, -⟩ | ⟨dc', bytes', h, -, ⟨-, hgood, -⟩ | ⟨-, rfl⟩⟩
  · exact nomatch hm.symm.trans hq
  · exact nomatch hbad.symm.trans hgood
  · obtain ⟨rfl, rfl⟩ := Prod.mk.inj (Option.some.inj (hm.symm.trans h))
    exact ht

theorem transfer_log (m : MicroOp) (s : State) (es : List Event) : m.transfer (s.log es) = m.transfer s := by
  cases m <;> rfl

theorem latched_log (m : MicroOp) (s : State) (es : List Event) : m.latched (s.log es) = (m.latched s).log es := by
  cases m <;> rfl

/-- The state in which a list stops at a transfer that fails: its micro-operations before that one have emitted `es`,
and have left, with the latch of the transfer, `v` (R231). -/
def State.stopped (v : State) (es : List Event) (dc : Bit) (bytes : List Byte) : State :=
  (State.log { v.started dc with cs := Config.csAfterFault v.xcnt } (es ++ [.xferFail dc bytes])).raiseBusFault
    v.xcnt dc

/-- A list stops at its first transfer that fails (R96, R231). -/
theorem runOps_stopped {ms : List MicroOp} {n : Nat} {m : MicroOp} {dc : Bit} {bytes : List Byte}
    (hn : ms[n]? = some m) (hfixed : (ms.take n).all MicroOp.fixed = true) (hf : s.fault = false)
    (hm : m.transfer ((ms.take n).foldl MicroOp.registers s) = some (dc, bytes)) (hne : bytes ≠ [])
    (hbus : s.busGoodFor (transferCount (ms.take n)))
    (hbad : s.busErr (s.xcnt + transferCount (ms.take n)) = true) :
    runOps ms s = .next ((m.latched ((ms.take n).foldl MicroOp.registers s)).stopped
      ((ms.take n).flatMap MicroOp.events) dc bytes) := by
  obtain ⟨hlt, hget⟩ := List.getElem?_eq_some_iff.mp hn
  have hsplit : ms = ms.take n ++ m :: ms.drop (n + 1) := by
    rw [← hget, ← List.drop_eq_getElem_cons hlt, List.take_append_drop]
  have hbefore := runOps_fixed_good hfixed hf hbus
  have hxcnt := foldl_registers_xcnt (ms.take n) s
  have hbusErrs := foldl_registers_busErrs (ms.take n) s
  have huf := (foldl_registers_fault (ms.take n) s).trans hf
  generalize (ms.take n).foldl MicroOp.registers s = u at *
  generalize (ms.take n).flatMap MicroOp.events = es at *
  have hbad' : u.busErr u.xcnt = true := by rwa [State.busErr, hbusErrs, hxcnt]
  have hstop := run_transfer_bad (s := u.log es) huf ((transfer_log m u es).trans hm) hne hbad'
  have hfail : ((m.latched (u.log es)).started dc).failTransfer u.xcnt dc bytes
      = (m.latched u).stopped es dc bytes := by
    rw [latched_log, ← latched_xcnt m u]
    exact failTransfer_log ((m.latched u).started dc) es _ dc bytes
  calc runOps ms s = runOps (m :: ms.drop (n + 1)) (u.log es) := by rw [← runOps_append hbefore huf, ← hsplit]
    _ = .next ((m.latched u).stopped es dc bytes) := by
      rw [← hfail]
      exact runOps_cons_fault hstop (failTransfer_fault _ _ _ _)

/-! ### Instructions -/

/-- What an accepted instruction whose list has fixed bytes does on a good bus. -/
theorem exec_fixed_good {i : Instr} (hp : ∀ r g b, i ≠ .pack r g b) (hr : s.ready = true)
    (hfixed : (accepted i s).sequence.all MicroOp.fixed = true)
    (hbus : s.busGoodFor (transferCount (accepted i s).sequence)) :
    exec i s = .next (((accepted i s).sequence.foldl MicroOp.registers (accepted i s)).log
      ((accepted i s).sequence.flatMap MicroOp.events)).complete := by
  have hf : (accepted i s).fault = false := (accepted_fault i s).trans (ready_iff.mp hr).2.1
  have hbus' : (accepted i s).busGoodFor (transferCount (accepted i s).sequence) :=
    busGoodFor_of_xcnt (k := 0) (accepted_busErrs i s) (accepted_xcnt i s) (by rwa [Nat.zero_add])
  rw [exec_eq_drive i hp, whenReady_true hr,
    drive_of_runOps (runOps_fixed_good hfixed hf hbus') ((foldl_registers_fault _ _).trans hf)]

/-- What it does on a bus whose first failing transfer is the one at step `n` of its list. -/
theorem exec_fixed_stopped {i : Instr} {n : Nat} {m : MicroOp} {dc : Bit} {bytes : List Byte}
    (hp : ∀ r g b, i ≠ .pack r g b) (hr : s.ready = true) (hn : (accepted i s).sequence[n]? = some m)
    (hfixed : ((accepted i s).sequence.take n).all MicroOp.fixed = true)
    (hm : m.transfer (((accepted i s).sequence.take n).foldl MicroOp.registers (accepted i s)) = some (dc, bytes))
    (hne : bytes ≠ []) (hbus : s.busGoodFor (transferCount ((accepted i s).sequence.take n)))
    (hbad : s.busErr (s.xcnt + transferCount ((accepted i s).sequence.take n)) = true) :
    exec i s = .next
      ((m.latched (((accepted i s).sequence.take n).foldl MicroOp.registers (accepted i s))).stopped
        (((accepted i s).sequence.take n).flatMap MicroOp.events) dc bytes) := by
  have hf : (accepted i s).fault = false := (accepted_fault i s).trans (ready_iff.mp hr).2.1
  have hbus' : (accepted i s).busGoodFor (transferCount ((accepted i s).sequence.take n)) :=
    busGoodFor_of_xcnt (k := 0) (accepted_busErrs i s) (accepted_xcnt i s) (by rwa [Nat.zero_add])
  have hbad' :
      (accepted i s).busErr ((accepted i s).xcnt + transferCount ((accepted i s).sequence.take n)) = true := by
    rwa [State.busErr, accepted_busErrs, accepted_xcnt]
  rw [exec_eq_drive i hp, whenReady_true hr,
    drive_of_fault (runOps_stopped hn hfixed hf hm hne hbus' hbad') rfl]

/-- What acceptance, each micro-operation of the list and completion keep, the instruction keeps, accepted or not. -/
theorem exec_keeps_of_mem {P : State → Prop} {i : Instr} (hp : ∀ r g b, i ≠ .pack r g b) (hs : P s)
    (hacc : P (accepted i s))
    (hrun : ∀ m ∈ (accepted i s).sequence, ∀ u v, P u → u.fault = false → m.run u = .next v → P v)
    (hdone : ∀ u, P u → P u.complete) (h : exec i s = .next t) : P t := by
  rcases exec_cases h with ⟨-, rfl⟩ | ⟨-, r, g, b, hi, -⟩ | ⟨hr, -, hd⟩
  · exact hs
  · exact absurd hi (hp r g b)
  · exact drive_keeps hrun hdone hacc ((accepted_fault i s).trans (ready_iff.mp hr).2.1) hd

end Sys2Proof.Machine
end

section
/-! PROOFS. The Panel Controller: the micro-operations without transfer (O9), `RAMWR` (O13), `RST` (O17), `INIT` (O19)
and both on a failing bus (O18), `WIN` (O20) and its clamping (O30), and what they leave unchanged (O36, O37). -/

namespace Sys2Proof.Machine

variable {s t : State}

/-! ### O9: the micro-operations without transfer -/

/-- Settles O9: the rules of the five micro-operations. -/
theorem microOperationsWithoutTransfer : Obligations.MicroOperationsWithoutTransfer := by
  intro s p n d hf
  exact ⟨run_resl hf, run_resh hf, run_pst hf, run_wait hf, run_blset hf⟩

/-! ### O13, O17 and O19: `RAMWR`, `RST` and `INIT` on a good bus -/

/-- R141: what `RST` writes outside `TRACE` and the panel. -/
theorem foldl_registers_seqRst (s : State) :
    (seqRst s).foldl MicroOp.registers s =
      { s with
        res := 1, dc := 0, cs := 1, cmdb := s.cfg.opcSwreset, pstate := .reset
        xcnt := s.xcnt + 1, seqpc := s.seqpc + 6 } := by
  simp only [seqRst, List.foldl_cons, List.foldl_nil, MicroOp.registers]

/-- R146: what steps 6 to 26 of `INIT` write there. -/
theorem foldl_registers_seqConfigure (s : State) :
    (seqConfigure s).foldl MicroOp.registers s =
      { s with
        dc := 0, cs := 1, cmdb := s.cfg.opcDispon, pstate := .active, bld := some s.cfg.blDefaultDuty
        xcnt := s.xcnt + 14, seqpc := s.seqpc + 21 } := by
  simp only [seqConfigure, List.foldl_cons, List.foldl_nil, MicroOp.registers]

/-- R146: what `INIT` writes there. -/
theorem foldl_registers_seqInit (s : State) :
    (seqInit s).foldl MicroOp.registers s =
      { s with
        res := 1, dc := 0, cs := 1, cmdb := s.cfg.opcDispon, pstate := .active, bld := some s.cfg.blDefaultDuty
        xcnt := s.xcnt + 15, seqpc := s.seqpc + 27 } := by
  rw [seqInit, List.foldl_append, foldl_registers_seqRst]
  exact foldl_registers_seqConfigure _

/-- R146: the events of `INIT`'s list. -/
theorem events_seqInit (s : State) : (seqInit s).flatMap MicroOp.events = initEvents s.cfg := rfl

/-- Settles O13: the list of `RAMWR` is one command transfer. -/
theorem ramwrSendsMemoryWrite : Obligations.RamwrSendsMemoryWrite := by
  intro s hr hbus
  rw [exec_fixed_good (i := .ramwr) (fun _ _ _ => nofun) hr rfl (busGoodFor_one hbus), accepted, sequence_ramwr rfl]
  rfl

/-- Settles O17: the list of `RST` has one transfer. -/
theorem rstRunsItsSixSteps : Obligations.RstRunsItsSixSteps := by
  intro s hr hbus
  rw [exec_fixed_good (i := .rst) (fun _ _ _ => nofun) hr rfl (busGoodFor_one hbus), accepted, sequence_rst rfl,
    foldl_registers_seqRst]
  rfl

/-- Settles O19: the list of `INIT` has 15 transfers. -/
theorem initRunsItsSequence : Obligations.InitRunsItsSequence := by
  intro s hr hbus
  rw [exec_fixed_good (i := .init) (fun _ _ _ => nofun) hr rfl hbus, accepted, sequence_init rfl,
    foldl_registers_seqInit, events_seqInit]
  rfl

/-! ### O18: `RST` and `INIT` on a failing bus -/

/-- R141, R231: `RST` whose transfer fails has reset the panel and stops at step 3. -/
theorem exec_rst_stopped (hr : s.ready = true) (hbad : s.busErr s.xcnt = true) :
    exec .rst s = .next
      (State.stopped { accepted .rst s with res := 1, seqpc := 3, cmdb := s.cfg.opcSwreset }
        [.res 0, .wait Config.tReslow, .res 1] 0 [s.cfg.opcSwreset]) :=
  exec_fixed_stopped (i := .rst) (n := 3) (m := .xc s.cfg.opcSwreset) (fun _ _ _ => nofun) hr rfl rfl rfl
    (List.cons_ne_nil _ _) (fun _ hj => absurd hj (Nat.not_lt_zero _)) hbad

/-- What row `(step, event, ps)` of `initTransfers`, its `k`-th, says of the list of `INIT`: at `step` stands `m`, which
performs the transfer of event `event`. What comes before it, `before`, emits the events before that one, `k` transfers
among them; it writes `RES` and `PSTATE` as the row says and leaves `BLD`, which is `v`, with the latch of `m`. -/
structure InitRow (s : State) (k step event : Nat) (ps : Option PState) (m : MicroOp) (dc : Bit) (bytes : List Byte)
    (before : List MicroOp) (v : State) : Prop where
  atStep : (seqInit s)[step]? = some m
  transfer : m.transfer (before.foldl MicroOp.registers s) = some (dc, bytes)
  nonempty : bytes ≠ []
  atEvent : (initEvents s.cfg)[event]? = some (.xfer dc bytes)
  fixed : before.all MicroOp.fixed = true
  count : transferCount before = k
  events : before.flatMap MicroOp.events = (initEvents s.cfg).take event
  latched : v =
    { s with
      cmdb := v.cmdb, cs := v.cs, dc := v.dc, xcnt := s.xcnt + k, seqpc := s.seqpc + step, res := 1
      pstate := ps.getD s.pstate }

/-- The fifteen rows one by one, each read off the list. -/
theorem initRow_of_initTransfers {k step event : Nat} {ps : Option PState} (s : State)
    (h : initTransfers[k]? = some (step, event, ps)) :
    ∃ m dc bytes, InitRow s k step event ps m dc bytes ((seqInit s).take step)
      (m.latched (((seqInit s).take step).foldl MicroOp.registers s)) := by
  have hk : k < 15 := (List.getElem?_eq_some_iff.mp h).1
  interval_cases k <;> cases h <;>
    exact ⟨_, _, _, rfl, rfl, List.cons_ne_nil _ _, rfl, rfl, rfl, rfl, by
      simp only [seqInit, seqRst, seqConfigure, List.cons_append, List.nil_append, List.take, List.foldl_cons,
        List.foldl_nil, MicroOp.registers, MicroOp.latched, Option.getD, Nat.add_zero]⟩

/-- R146, R231: `INIT` stops at the row of `initTransfers` whose transfer is the first to fail. -/
theorem exec_init_stopped {k step event : Nat} {ps : Option PState} (hr : s.ready = true)
    (hrow : initTransfers[k]? = some (step, event, ps)) (hbus : s.busGoodFor k)
    (hbad : s.busErr (s.xcnt + k) = true) :
    ∃ (dc : Bit) (bytes : List Byte) (v : State), (initEvents s.cfg)[event]? = some (.xfer dc bytes)
      ∧ exec .init s = .next (v.stopped ((initEvents s.cfg).take event) dc bytes)
      ∧ v = { accepted .init s with
          cmdb := v.cmdb, cs := v.cs, dc := v.dc, xcnt := s.xcnt + k, seqpc := step, res := 1
          pstate := ps.getD s.pstate } := by
  obtain ⟨m, dc, bytes, row⟩ := initRow_of_initTransfers (accepted .init s) hrow
  have hcount := row.count
  have hstop := exec_fixed_stopped (i := .init) (n := step) (fun _ _ _ => nofun) hr row.atStep row.fixed row.transfer
    row.nonempty (hcount.symm ▸ hbus) (hcount.symm ▸ hbad)
  rw [sequence_init (s := accepted .init s) rfl, row.events] at hstop
  have hlatched := row.latched
  rw [show (accepted .init s).seqpc = 0 from rfl, Nat.zero_add] at hlatched
  exact ⟨dc, bytes, _, row.atEvent, hstop, hlatched⟩

/-- Settles O18: `exec_rst_stopped`, and `exec_init_stopped` read field by field. -/
theorem rstAndInitFaultPartWay : Obligations.RstAndInitFaultPartWay := by
  refine ⟨fun s hr hbad => exec_rst_stopped hr hbad, fun s k step event ps hr hrow hbus hbad => ?_⟩
  obtain ⟨dc, bytes, v, hevent, hexec, hv⟩ := exec_init_stopped hr hrow hbus hbad
  refine ⟨_, dc, bytes, hexec, hevent, ?_⟩
  rw [hv]
  exact ⟨(List.append_assoc _ _ _).symm, rfl, rfl, rfl, rfl, rfl, rfl, rfl, rfl, rfl, rfl, rfl⟩

/-! ### O20 and O30: what `WIN` sends -/

/-- R11, R155: the clamp is the minimum with the bound less one, as numbers. -/
theorem clamp_eq_ofNat_min (c bound : Word) : clamp c bound = BitVec.ofNat 16 (min c.toNat (bound - 1).toNat) := by
  unfold clamp minWord
  split
  · rename_i h
    rw [Nat.min_eq_left h, BitVec.ofNat_toNat, BitVec.setWidth_eq]
  · rename_i h
    rw [Nat.min_eq_right (Nat.le_of_not_le h), BitVec.ofNat_toNat, BitVec.setWidth_eq]

/-- R155, R156: a translated coordinate, with the minimum of its clamp taken as numbers. -/
theorem controllerCoord_eq_ofNat (c bound off : Word) :
    controllerCoord c bound off = BitVec.ofNat 16 (min c.toNat (bound - 1).toNat) + off := by
  rw [controllerCoord, clamp_eq_ofNat_min]

/-- R158: at or above its bound a coordinate clamps as `bound - 1` does. -/
theorem clamp_of_bound_le {c bound : Word} (hb : 1 ≤ bound.toNat) (h : bound.toNat ≤ c.toNat) :
    clamp (bound - 1) bound = clamp c bound := by
  have hpred : (bound - 1).toNat = bound.toNat - 1 := BitVec.toNat_sub_of_le hb
  rw [clamp_eq_ofNat_min, clamp_eq_ofNat_min, Nat.min_self, Nat.min_eq_right (by omega)]

/-- R158: replacing a coordinate at or above its bound by `bound - 1` does not change what is sent. -/
theorem controllerCoord_clamped {bound : Word} (c off : Word) (hb : 1 ≤ bound.toNat) :
    controllerCoord (if bound.toNat ≤ c.toNat then bound - 1 else c) bound off = controllerCoord c bound off := by
  split
  · rename_i h
    rw [controllerCoord, clamp_of_bound_le hb h, controllerCoord]
  · rfl

/-- R154: the four latches of `WIN` hold translated coordinates; the operands are used for nothing else. -/
theorem exec_win (x0 x1 y0 y1 : Word) (s : State) :
    exec (.win x0 x1 y0 y1) s = whenReady s ((s.accept 5).latchWindow (controllerCoord x0 s.cfg.w s.cfg.xoff)
      (controllerCoord x1 s.cfg.w s.cfg.xoff) (controllerCoord y0 s.cfg.h s.cfg.yoff)
      (controllerCoord y1 s.cfg.h s.cfg.yoff)).drive := rfl

/-- Settles O30: `exec_win` and `controllerCoord_clamped` for each operand. -/
theorem windowClampingLaw : Obligations.WindowClampingLaw := by
  intro x0 x1 y0 y1 s hv
  obtain ⟨hw, -, hh, -, -⟩ := Cfg.valid_facts hv
  rw [exec_win, exec_win, controllerCoord_clamped x0 _ hw, controllerCoord_clamped x1 _ hw,
    controllerCoord_clamped y0 _ hh, controllerCoord_clamped y1 _ hh]

/-- R154: what `WIN` writes outside `TRACE` and the panel. -/
theorem foldl_registers_seqWin (s : State) :
    (seqWin s).foldl MicroOp.registers s =
      { s with dc := 1, cs := 1, cmdb := s.cfg.opcRaset, xcnt := s.xcnt + 4, seqpc := s.seqpc + 4 } := by
  simp only [seqWin, List.foldl_cons, List.foldl_nil, MicroOp.registers]

/-- R154, R159: the events of `WIN`. -/
theorem events_seqWin (s : State) :
    (seqWin s).flatMap MicroOp.events =
      [.xfer 0 [s.cfg.opcCaset], .xfer 1 (be16 s.x0 ++ be16 s.x1),
       .xfer 0 [s.cfg.opcRaset], .xfer 1 (be16 s.y0 ++ be16 s.y1)] := rfl

/-- Settles O20: the list of `WIN` has four transfers, of the four latches. -/
theorem winSendsClampedWindow : Obligations.WinSendsClampedWindow := by
  intro x0 x1 y0 y1 s hr hbus xs xe ys ye events hxs hxe hys hye hevents
  rw [← controllerCoord_eq_ofNat] at hxs hxe hys hye
  have hacc : accepted (.win x0 x1 y0 y1) s = (s.accept 5).latchWindow xs xe ys ye := by
    rw [hxs, hxe, hys, hye]
    rfl
  have hev : (seqWin ((s.accept 5).latchWindow xs xe ys ye)).flatMap MicroOp.events = events := by
    rw [events_seqWin, hevents]
    rfl
  rw [exec_fixed_good (i := .win x0 x1 y0 y1) (fun _ _ _ => nofun) hr rfl hbus, hacc, sequence_win rfl,
    foldl_registers_seqWin, hev]
  rfl

/-! ### O36 and O37: what the Panel Controller leaves unchanged -/

/-- The state with every element blanked that an operation of the Panel Controller with fixed bytes may write,
acceptance and its end included. -/
def State.offPanel (s : State) : State := { s.offWire with res := 0, pstate := .unpowered, bld := none, cmdb := 0 }

/-- A micro-operation with fixed bytes, good or failed, writes nothing else. -/
theorem run_fixed_offPanel {m : MicroOp} (hm : m.fixed = true) (hf : s.fault = false) (h : m.run s = .next t) :
    t.offPanel = s.offPanel := by
  rcases run_cases hf h with ⟨-, rfl⟩ | ⟨dc, bytes, -, -, ⟨-, -, rfl⟩ | ⟨-, rfl⟩⟩
  · cases m with
    | stage k => exact nomatch hm
    | _ => rfl
  · cases m with
    | xs => exact nomatch hm
    | _ => rfl
  · cases m <;> rfl

/-- Only `BLSET` writes `BLD` (R152). -/
theorem run_bld {m : MicroOp} (hm : ∀ d, m ≠ .blset d) (hf : s.fault = false) (h : m.run s = .next t) :
    t.bld = s.bld := by
  rcases run_cases hf h with ⟨-, rfl⟩ | ⟨dc, bytes, -, -, ⟨-, -, rfl⟩ | ⟨-, rfl⟩⟩
  · cases m with
    | blset d => exact absurd rfl (hm d)
    | _ => rfl
  · cases m <;> rfl
  · cases m <;> rfl

/-- `RST` and `INIT` latch no operand, and their lists have fixed bytes. -/
theorem exec_rst_or_init_offPanel {i : Instr} (hi : i = .rst ∨ i = .init) (h : exec i s = .next t) :
    t.offPanel = s.offPanel := by
  have hp : ∀ r g b, i ≠ .pack r g b := by rcases hi with rfl | rfl <;> exact fun _ _ _ => nofun
  have hacc : (accepted i s).offPanel = s.offPanel := by rcases hi with rfl | rfl <;> rfl
  have hfixed : (accepted i s).sequence.all MicroOp.fixed = true := by rcases hi with rfl | rfl <;> rfl
  exact exec_keeps_of_mem (P := fun u => u.offPanel = s.offPanel) hp rfl hacc
    (fun m hm u v hu huf hv => (run_fixed_offPanel (List.all_eq_true.mp hfixed m hm) huf hv).trans hu)
    (fun _ hu => hu) h

/-- R141: the list of `RST` has no `BLSET`. -/
theorem exec_rst_bld (h : exec .rst s = .next t) : t.bld = s.bld := by
  refine exec_keeps_of_mem (P := fun u => u.bld = s.bld) (i := .rst) (fun _ _ _ => nofun) rfl rfl
    (fun m hm u v hu huf hv => (run_bld (fun d hd => ?_) huf hv).trans hu) (fun _ hu => hu) h
  rw [accepted, sequence_rst rfl, hd] at hm
  simp [seqRst] at hm

/-- Settles O36: `exec_rst_or_init_offPanel`, read field by field, and `exec_rst_bld`. -/
theorem frameOfRstAndInit : Obligations.FrameOfRstAndInit := by
  intro i s t hi h
  have agree : ∀ {α : Type} (f : State → α), f t.offPanel = f s.offPanel :=
    fun f => congrArg f (exec_rst_or_init_offPanel hi h)
  exact ⟨agree State.cfg, agree State.life, fun hrst => exec_rst_bld (hrst ▸ h), agree State.x0, agree State.x1,
    agree State.y0, agree State.y1, agree State.cr, agree State.cg, agree State.cb, agree State.pk, agree State.cnt,
    agree State.slen, agree State.srcb, agree State.srcc, agree State.port, agree State.busErrs,
    fun a => agree fun u => Scratch.read u.scr a⟩

/-- R154: the list of `WIN` holds command and data transfers alone. -/
theorem mem_seqWin {m : MicroOp} (h : m ∈ seqWin s) : (∃ b, m = .xc b) ∨ ∃ bytes, m = .xd bytes := by
  simp only [seqWin, List.mem_cons, List.not_mem_nil, or_false] at h
  obtain rfl | rfl | rfl | rfl := h
  · exact .inl ⟨_, rfl⟩
  · exact .inr ⟨_, rfl⟩
  · exact .inl ⟨_, rfl⟩
  · exact .inr ⟨_, rfl⟩

/-- Off the wire `WIN` changes `CMDB` and its four latches alone. -/
theorem exec_win_offWire {x0 x1 y0 y1 : Word} (h : exec (.win x0 x1 y0 y1) s = .next t) :
    ∃ b a c d e, t.offWire = { s.offWire with cmdb := b, x0 := a, x1 := c, y0 := d, y1 := e } := by
  refine exec_keeps_of_mem (s := s) (P := fun u => ∃ b a c d e,
    u.offWire = { s.offWire with cmdb := b, x0 := a, x1 := c, y0 := d, y1 := e }) (i := .win x0 x1 y0 y1)
    (fun _ _ _ => nofun) ⟨s.cmdb, s.x0, s.x1, s.y0, s.y1, rfl⟩ ⟨s.cmdb, _, _, _, _, rfl⟩
    (fun m hm u v hu huf hv => ?_) (fun _ hu => hu) h
  obtain ⟨b, a, c, d, e, hu⟩ := hu
  obtain ⟨b', rfl⟩ | ⟨bytes, rfl⟩ := mem_seqWin (s := accepted (.win x0 x1 y0 y1) s) hm
  · exact ⟨b', a, c, d, e, by rw [run_xc_offWire huf hv, hu]⟩
  · exact ⟨b, a, c, d, e, by rw [run_xd_offWire huf hv, hu]⟩

/-- Settles O37: `exec_win_offWire`, read field by field. -/
theorem frameOfWin : Obligations.FrameOfWin := by
  intro x0 x1 y0 y1 s t h
  obtain ⟨b, a, c, d, e, hoff⟩ := exec_win_offWire h
  have agree : ∀ {α : Type} (f : State → α),
      f t.offWire = f { s.offWire with cmdb := b, x0 := a, x1 := c, y0 := d, y1 := e } := fun f => congrArg f hoff
  exact ⟨agree State.cfg, agree State.res, agree State.pstate, agree State.bld, agree State.life, agree State.cr,
    agree State.cg, agree State.cb, agree State.pk, agree State.cnt, agree State.slen, agree State.srcb,
    agree State.srcc, agree State.port, agree State.busErrs, fun a => agree fun u => Scratch.read u.scr a⟩

end Sys2Proof.Machine
end

section
/-! PROOFS. The panel after `INIT` (O53): what it makes of a command without payload and of a command with its fixed
payload, and the settings that `INIT` leaves in place. -/

namespace Sys2Proof.Machine

variable {cfg : Cfg} {p : Panel}

/-! ### Whole transfers -/

/-- A command of the thirteen, sent alone to a panel that is owed no delay (R205, R207). -/
theorem onEvent_command (hv : cfg.valid = true) (ht : p.trust ≠ .refused) (hd : p.due = 0) (c : WireCommand) :
    p.onEvent cfg (.xfer 0 [cfg.opcode c]) = p.endStream.commandEffect cfg c := byte_command hv ht hd c

/-- The rest of a fixed payload, in one transfer (R94). -/
theorem onEvent_payload (ht : p.trust ≠ .refused) (hw : p.writing ≠ some true) {c : WireCommand}
    {got bytes : List Byte} (hp : p.pending = some (c, got)) (hne : bytes ≠ [])
    (hn : c.payloadBytes = some (got.length + bytes.length)) :
    p.onEvent cfg (.xfer 1 bytes) = Panel.applyPayload c (got ++ bytes) { p with pending := none } := by
  show bytes.foldl (Panel.byte cfg 1) p = _
  induction bytes generalizing p got with
  | nil => exact absurd rfl hne
  | cons b bs ih =>
    rw [List.foldl_cons]
    rcases bs with _ | ⟨b', bs⟩
    · exact byte_payload_last ht hw hp hn b
    · have hmore : c.payloadBytes ≠ some (got.length + 1) := by
        rw [hn]
        simp
      rw [byte_payload_more ht hw hp hmore b, ih (p := { p with pending := some (c, got ++ [b]) }) ht hw rfl
        (List.cons_ne_nil _ _) (by rw [hn]; simp; omega), List.append_assoc, List.singleton_append]

/-- The panel waits for a command: the contract describes it, no delay is owed, and neither a payload nor a pixel is
coming in. -/
structure Panel.Idle (p : Panel) : Prop where
  trust : p.trust = .trusted
  due : p.due = 0
  pending : p.pending = none
  half : p.half = none
  writing : p.writing = some false

/-- At an idle panel a command byte ends nothing (R207). -/
theorem endStream_of_idle (h : p.Idle) : p.endStream = p := by
  have hhalf : p.discardHalf = p := by rw [Panel.discardHalf, h.half]
  rw [Panel.endStream, h.pending, hhalf, ← h.writing]
  rfl

theorem after_command (hv : cfg.valid = true) (h : p.Idle) (c : WireCommand) (es : List Event) :
    p.after cfg (.xfer 0 [cfg.opcode c] :: es) = (p.commandEffect cfg c).after cfg es := by
  have ht : p.trust ≠ .refused := by rw [h.trust]; decide
  rw [after_cons, onEvent_command hv ht h.due, endStream_of_idle h]

/-- A command with its fixed payload, to an idle panel: the payload takes effect (R94). `n` is the delay that the
command itself makes the panel be owed. -/
theorem after_frame (hv : cfg.valid = true) (h : p.Idle) {c : WireCommand} {payload : List Byte} {n : Nat} {q : Panel}
    (hawait : p.commandEffect cfg c = { p.await c with due := n })
    (hq : Panel.applyPayload c payload { p with due := n } = q)
    (hne : payload ≠ []) (hn : c.payloadBytes = some payload.length) (es : List Event) :
    p.after cfg (.xfer 0 [cfg.opcode c] :: .xfer 1 payload :: es) = q.after cfg es := by
  have ht : p.trust ≠ .refused := by rw [h.trust]; decide
  have hw : p.writing ≠ some true := by rw [h.writing]; decide
  have hnone : { { p.await c with due := n } with pending := none } = { p with due := n } := by
    rw [← h.pending]
    rfl
  rw [after_command hv h, hawait, after_cons,
    onEvent_payload (p := { p.await c with due := n }) ht hw rfl hne (by simpa using hn), hnone, List.nil_append, hq]

/-- A delay that is long enough is owed no more (R250, R270). -/
theorem after_wait {n : Nat} (h : p.due ≤ n) (es : List Event) :
    p.after cfg (.wait n :: es) = Panel.after cfg { p with due := 0 } es := by
  rw [after_cons, Panel.onEvent, Nat.sub_eq_zero_of_le h]

/-- The reset line going high when no delay is owed changes nothing (R141, R270). -/
theorem after_resetHigh (h : p.due = 0) (es : List Event) : p.after cfg (.res 1 :: es) = p.after cfg es := by
  have hhigh : p.onEvent cfg (.res 1) = p := by simp [Panel.onEvent, Panel.resetHigh, h]
  rw [after_cons, hhigh]

/-! ### `INIT` -/

/-- The panel after the embedded reset of `INIT` (R141): asleep, and nothing else known of it (log 16). -/
def Panel.asleep : Panel :=
  { Panel.unspecified with trust := .trusted, writing := some false, awake := some false }

/-- A panel with every setting that `INIT` makes under `cfg` (R146). -/
def Panel.initialised (cfg : Cfg) (p : Panel) : Panel :=
  { p with
    awake := some true, colmod := some cfg.valColmod, madctl := some cfg.valMadctl, porch := some cfg.porch
    gctrl := some cfg.valGctrl, vcom := some cfg.valVcom, inverted := some true, normalMode := some true
    displayOn := some true }

theorem idle_asleep : Panel.asleep.Idle := ⟨rfl, rfl, rfl, rfl, rfl⟩

theorem drawable_initialised (cfg : Cfg) (h : p.Idle) : (p.initialised cfg).drawable cfg = true := by
  simp [Panel.drawable, Panel.described, Panel.isActive, Panel.initialised, h.trust, h.due, h.pending]

/-- Whatever the panel was, the reset line going low makes one panel of it, unless it is refused or owed a delay (R141,
log 16). -/
theorem resetLow_of_no_delay (ht : p.trust ≠ .refused) (hd : p.due = 0) :
    p.resetLow = { Panel.asleep with due := Config.tReslow } := by
  simp [Panel.resetLow, ht, hd, Panel.afterReset, Panel.asleep]

/-- R141, R143: the embedded reset keeps its two delays. -/
theorem after_reset (hv : cfg.valid = true) (ht : p.trust ≠ .refused) (hd : p.due = 0) (es : List Event) :
    p.after cfg (.res 0 :: .wait 20 :: .res 1 :: .xfer 0 [cfg.opcSwreset] :: .wait 150 :: es)
      = Panel.asleep.after cfg es := by
  have hlow : p.onEvent cfg (.res 0) = { Panel.asleep with due := Config.tReslow } := resetLow_of_no_delay ht hd
  rw [after_cons, hlow]
  refine (after_wait (Nat.le_refl 20) _).trans ?_
  refine (after_resetHigh (p := Panel.asleep) rfl _).trans ?_
  refine (after_command hv idle_asleep .swreset _).trans ?_
  exact after_wait (Nat.le_refl 150) es

/-- R146, R148: leaving sleep keeps its delay. -/
theorem after_sleepOut (hv : cfg.valid = true) (h : p.Idle) (es : List Event) :
    p.after cfg (.xfer 0 [cfg.opcSlpout] :: .wait 120 :: es) = Panel.after cfg { p with awake := some true } es := by
  refine (after_command hv h .slpout _).trans ((after_wait (Nat.le_refl 120) _).trans ?_)
  rw [← h.due]
  rfl

/-- R146, R148: the five frames of `INIT`, and the delay after the last. -/
theorem after_frames (hv : cfg.valid = true) (h : p.Idle) (es : List Event) :
    p.after cfg
      (.xfer 0 [cfg.opcColmod] :: .xfer 1 [cfg.valColmod] :: .xfer 0 [cfg.opcMadctl] :: .xfer 1 [cfg.valMadctl] ::
       .xfer 0 [cfg.opcPorctrl] :: .xfer 1 cfg.porch :: .xfer 0 [cfg.opcGctrl] :: .xfer 1 [cfg.valGctrl] ::
       .xfer 0 [cfg.opcVcoms] :: .xfer 1 [cfg.valVcom] :: .wait 10 :: es)
      = Panel.after cfg
          { p with
            colmod := some cfg.valColmod, madctl := some cfg.valMadctl, porch := some cfg.porch
            gctrl := some cfg.valGctrl, vcom := some cfg.valVcom } es := by
  have h₁ : Panel.Idle { p with colmod := some cfg.valColmod } := ⟨h.trust, h.due, h.pending, h.half, h.writing⟩
  have h₂ : Panel.Idle { p with colmod := some cfg.valColmod, madctl := some cfg.valMadctl } :=
    ⟨h.trust, h.due, h.pending, h.half, h.writing⟩
  have h₃ : Panel.Idle
      { p with colmod := some cfg.valColmod, madctl := some cfg.valMadctl, porch := some cfg.porch } :=
    ⟨h.trust, h.due, h.pending, h.half, h.writing⟩
  have h₄ : Panel.Idle
      { p with
        colmod := some cfg.valColmod, madctl := some cfg.valMadctl, porch := some cfg.porch
        gctrl := some cfg.valGctrl } := ⟨h.trust, h.due, h.pending, h.half, h.writing⟩
  refine (after_frame hv h (c := .colmod) rfl rfl (List.cons_ne_nil _ _) rfl _).trans ?_
  refine (after_frame hv h₁ (c := .madctl) rfl rfl (List.cons_ne_nil _ _) rfl _).trans ?_
  refine (after_frame hv h₂ (c := .porctrl) rfl rfl (List.cons_ne_nil _ _) rfl _).trans ?_
  refine (after_frame hv h₃ (c := .gctrl) rfl rfl (List.cons_ne_nil _ _) rfl _).trans ?_
  refine (after_frame hv h₄ (c := .vcoms) rfl rfl (List.cons_ne_nil _ _) rfl _).trans ?_
  refine (after_wait (Nat.le_refl 10) _).trans ?_
  rw [← h.due]
  rfl

/-- R146, R148: the display commands, and the delay and the backlight after them. -/
theorem after_displayOn (hv : cfg.valid = true) (h : p.Idle) (duty : Nat) :
    p.after cfg [.xfer 0 [cfg.opcInvon], .xfer 0 [cfg.opcNoron], .xfer 0 [cfg.opcDispon], .wait 150, .bl duty]
      = { p with inverted := some true, normalMode := some true, displayOn := some true } := by
  have h₁ : Panel.Idle { p with inverted := some true } := ⟨h.trust, h.due, h.pending, h.half, h.writing⟩
  have h₂ : Panel.Idle { p with inverted := some true, normalMode := some true } :=
    ⟨h.trust, h.due, h.pending, h.half, h.writing⟩
  refine (after_command hv h .invon _).trans ?_
  refine (after_command hv h₁ .noron _).trans ?_
  refine (after_command hv h₂ .dispon _).trans ?_
  refine (after_wait (Nat.le_refl 150) _).trans ?_
  rw [← h.due]
  rfl

/-- R146: `INIT` leaves every setting in place, from whatever panel is neither refused nor owed a delay. -/
theorem after_initEvents (hv : cfg.valid = true) (ht : p.trust ≠ .refused) (hd : p.due = 0) :
    p.after cfg (initEvents cfg) = Panel.asleep.initialised cfg := by
  refine (after_reset hv ht hd _).trans ?_
  refine (after_sleepOut hv idle_asleep _).trans ?_
  refine (after_frames (p := { Panel.asleep with awake := some true }) hv ⟨rfl, rfl, rfl, rfl, rfl⟩ _).trans ?_
  exact after_displayOn hv ⟨rfl, rfl, rfl, rfl, rfl⟩ cfg.blDefaultDuty

/-- Settles O53: `INIT` on a good bus emits `initEvents`, which leave every setting in place. -/
theorem initMakesPanelDrawable : Obligations.InitMakesPanelDrawable := by
  intro s hr hbus hv ht hd
  refine ⟨_, initRunsItsSequence s hr hbus, rfl, ?_⟩
  show (s.panel.after s.cfg (initEvents s.cfg)).drawable s.cfg = true
  rw [after_initEvents hv ht hd, drawable_initialised s.cfg idle_asleep]

end Sys2Proof.Machine
end

section
/-! PROOFS. The color operand of the Color Codec: the layout of a packed color (O28, O29), and `PACK` (O21, O38). -/

namespace Sys2Proof.Machine

variable {s t : State}

/-! ### O28 and O29: the layout of a packed color -/

/-- The upper `k` bits of a byte, whatever the width they are widened to, are its shift by the others. -/
theorem setWidth_ushiftRight_byte (c : Byte) {n k : Nat} (h : n + k = 8) (w : Nat) :
    (c >>> n).setWidth w = (c.extractLsb' n k).setWidth w := by
  have hlt : c.toNat >>> n < 2 ^ k := by
    rw [Nat.shiftRight_eq_div_pow]
    exact Nat.div_lt_of_lt_mul (by rw [← pow_add, h]; exact c.isLt)
  apply BitVec.eq_of_toNat_eq
  rw [BitVec.toNat_setWidth, BitVec.toNat_setWidth, BitVec.toNat_ushiftRight, BitVec.extractLsb'_toNat,
    Nat.mod_eq_of_lt hlt]

/-- R173: the three shifted fields do not overlap, so that they stand side by side. -/
theorem packColor_eq_append (r g b : Byte) :
    packColor r g b = r.extractLsb' 3 5 ++ g.extractLsb' 2 6 ++ b.extractLsb' 3 5 := by
  have hfields := BitVec.setWidth_append_append_eq_shiftLeft_setWidth_or (w''' := 16)
    (b := r.extractLsb' 3 5) (b' := g.extractLsb' 2 6) (b'' := b.extractLsb' 3 5)
  rw [packColor, setWidth_ushiftRight_byte r (k := 5) rfl, setWidth_ushiftRight_byte g (k := 6) rfl,
    setWidth_ushiftRight_byte b (k := 5) rfl, ← hfields]
  exact BitVec.setWidth_eq (n := 16) _

/-- As numbers, one bit vector before another is the first, shifted past the second, plus the second. -/
theorem toNat_append_eq_add {v w : Nat} (x : BitVec v) (y : BitVec w) :
    (x ++ y).toNat = x.toNat * 2 ^ w + y.toNat := by
  rw [BitVec.toNat_append, ← Nat.shiftLeft_add_eq_or_of_lt y.isLt, Nat.shiftLeft_eq]

/-- Settles O28: `packColor_eq_append`, and its value field by field. -/
theorem packedColorLayout : Obligations.PackedColorLayout := by
  intro r g b
  refine ⟨packColor_eq_append r g b, ?_⟩
  rw [packColor_eq_append, toNat_append_eq_add, toNat_append_eq_add]
  simp only [BitVec.extractLsb'_toNat, Nat.shiftRight_eq_div_pow]
  omega

theorem append_eq_append_iff {v w : Nat} {x x' : BitVec v} {y y' : BitVec w} :
    x ++ y = x' ++ y' ↔ x = x' ∧ y = y' := by
  constructor
  · intro h
    have hleft := congrArg (BitVec.extractLsb' w v) h
    have hright := congrArg (BitVec.extractLsb' 0 w) h
    rw [BitVec.extractLsb'_append_eq_left, BitVec.extractLsb'_append_eq_left] at hleft
    rw [BitVec.extractLsb'_append_eq_right, BitVec.extractLsb'_append_eq_right] at hright
    exact ⟨hleft, hright⟩
  · rintro ⟨rfl, rfl⟩
    rfl

/-- Settles O29: a packed color is the three kept fields side by side, and nothing else. -/
theorem packTruncates : Obligations.PackTruncates := by
  intro r g b r' g' b'
  rw [packColor_eq_append, packColor_eq_append, append_eq_append_iff, append_eq_append_iff, and_assoc]

/-! ### O21 and O38: `PACK` -/

/-- Settles O21: where `PACK` is accepted, it is answered at once. -/
theorem packWritesItsLatches : Obligations.PackWritesItsLatches := by
  rintro r g b s hr pk rfl
  exact whenReady_true hr

/-- Settles O38: `PACK` changes nothing where it is not accepted, and `State.packed` where it is. -/
theorem frameOfPack : Obligations.FrameOfPack := by
  intro r g b s t h
  have hframe : t = { s with cr := t.cr, cg := t.cg, cb := t.cb, pk := t.pk, responses := t.responses } := by
    rcases exec_cases h with ⟨-, rfl⟩ | ⟨-, r', g', b', -, rfl⟩ | ⟨-, hp, -⟩
    · rfl
    · rfl
    · exact absurd rfl (hp r g b)
  rw [hframe]
  exact ⟨rfl, rfl, rfl, rfl, rfl, rfl, rfl, rfl, rfl, rfl, rfl, rfl, rfl, rfl, rfl, rfl, rfl, rfl, rfl, rfl, rfl,
    rfl, rfl, rfl, rfl, rfl, fun _ => rfl⟩

end Sys2Proof.Machine
end

section
/-! PROOFS. The chunks of the Color Codec: their sizes (O32), `SER` on a good bus (O22) and on a failing one (O23),
`SER` split in two (O33), and what it leaves unchanged (O39). -/

namespace Sys2Proof.Machine

variable {s t : State}

/-! ### O32: the sizes of the chunks -/

/-- Settles O32: the bounds are `chunkSize_pos` and `chunkSize_le`; before the last chunk 512 colors or more are left,
and from the last on no more than 512. -/
theorem chunkSizesOfSer : Obligations.ChunkSizesOfSer := by
  intro n k hk
  have hpos := chunkSize_pos hk
  have hle := chunkSize_le n k
  have hcount : chunkCount n = (n + 511) / 512 := rfl
  have hsize : chunkSize n k = min 512 (n - k * 512) := rfl
  exact ⟨fun hmore => by omega, fun hlast => by omega, hpos, by omega⟩

/-! ### The bytes of a chunk -/

/-- The bytes of chunk `k` of a `SER` of `colors` (R175). -/
def serChunk (colors : List Word) (k : Nat) : List Byte := colorBytes ((colors.drop (512 * k)).take 512)

/-- The chunk that `STAGE(k)` reads from a whole stream (R175). -/
theorem colorBytes_chunkColorsOf (colors : List Word) (k : Nat) :
    colorBytes (chunkColorsOf colors colors.length k) = serChunk colors k := by
  rw [serChunk, chunkColorsOf, chunkSize, Config.chunkColors, Nat.mul_comm k 512, ← List.length_drop,
    ← List.take_eq_take_min]

theorem length_serChunk (colors : List Word) (k : Nat) :
    (serChunk colors k).length = 2 * chunkSize colors.length k := by
  rw [← colorBytes_chunkColorsOf, length_colorBytes, length_chunkColorsOf (Nat.le_refl _)]

/-- No chunk is empty (R178). -/
theorem serChunk_ne_nil {colors : List Word} {k : Nat} (h : k < chunkCount colors.length) :
    serChunk colors k ≠ [] := by
  have hpos := chunkSize_pos h
  exact List.ne_nil_of_length_pos (by rw [length_serChunk]; omega)

/-- Every chunk fits one transfer (R10, R178). -/
theorem length_serChunk_le (colors : List Word) (k : Nat) : (serChunk colors k).length ≤ Config.maxXferBytes := by
  have hle := chunkSize_le colors.length k
  rw [length_serChunk, Config.maxXferBytes]
  omega

/-- The first `m` chunks are the first `512 * m` colors. -/
theorem flatMap_serChunk_range (colors : List Word) (m : Nat) :
    (List.range m).flatMap (serChunk colors) = colorBytes (colors.take (512 * m)) := by
  induction m with
  | zero => rfl
  | succ m ih =>
    rw [List.range_succ, List.flatMap_append, ih, List.flatMap_singleton, Nat.mul_succ, List.take_add, serChunk,
      colorBytes, colorBytes, colorBytes, List.flatMap_append]

/-- R179: all chunks together are all the colors. -/
theorem flatMap_serChunk (colors : List Word) :
    (List.range (chunkCount colors.length)).flatMap (serChunk colors) = colors.flatMap be16 := by
  have hcount : chunkCount colors.length = (colors.length + 511) / 512 := rfl
  rw [flatMap_serChunk_range, List.take_of_length_le (by omega), colorBytes]

/-! ### `SER` up to a chunk -/

/-- What `STAGE(k)` writes of a whole stream (R175). -/
theorem stage_serChunk (hlen : s.cnt.toNat = s.srcc.length) (k : Nat) :
    s.stage k = { s with
      scr := Scratch.writeFrom s.scr 0 (serChunk s.srcc k), slen := (serChunk s.srcc k).length } := by
  rw [State.stage, hlen, colorBytes_chunkColorsOf, length_serChunk]

/-- What `XS` sends after `STAGE(k)` (R175, R176). -/
theorem readFrom_stage_serChunk (hlen : s.cnt.toNat = s.srcc.length) (k : Nat) :
    Scratch.readFrom (s.stage k).scr 0 (s.stage k).slen = serChunk s.srcc k := by
  rw [readFrom_stage hlen.le, hlen, colorBytes_chunkColorsOf]

/-- The events of the first `m` chunks of a `SER` of `colors`. -/
def serEvents (colors : List Word) (m : Nat) : List Event := (List.range m).map fun k => .xfer 1 (serChunk colors k)

/-- The scratch buffer after the first `m` chunks of a `SER` of `colors` have been staged, one over the other. -/
def serScratch (colors : List Word) (m : Nat) (scr : List Host.Cell) : List Host.Cell :=
  (List.range m).foldl (fun mem k => Scratch.writeFrom mem 0 (serChunk colors k)) scr

theorem serEvents_succ (colors : List Word) (m : Nat) :
    serEvents colors (m + 1) = serEvents colors m ++ [.xfer 1 (serChunk colors m)] := by
  rw [serEvents, serEvents, List.range_succ, List.map_append, List.map_singleton]

theorem serScratch_succ (colors : List Word) (m : Nat) (scr : List Host.Cell) :
    serScratch colors (m + 1) scr = Scratch.writeFrom (serScratch colors m scr) 0 (serChunk colors m) := by
  rw [serScratch, serScratch, List.range_succ, List.foldl_append, List.foldl_cons, List.foldl_nil]

/-- The state of a `SER` in progress after its first `m` chunks have been sent whole. -/
def State.chunksSent (s : State) (m : Nat) : State :=
  State.log
    { s with
      seqpc := s.seqpc + 2 * m, xcnt := s.xcnt + m, scr := serScratch s.srcc m s.scr
      dc := if m = 0 then s.dc else 1, cs := if m = 0 then s.cs else 1, slen := if m = 0 then s.slen else 0 }
    (serEvents s.srcc m)

theorem chunksSent_zero (s : State) : s.chunksSent 0 = s := by
  rw [State.chunksSent, serEvents, List.range_zero, List.map_nil, log_nil]
  rfl

/-- One more chunk, staged and sent. -/
theorem runOps_chunk (hlen : s.cnt.toNat = s.srcc.length) {m : Nat} (hm : m < chunkCount s.srcc.length)
    (hf : s.fault = false) (hbus : s.busErr (s.xcnt + m) = false) :
    runOps [.stage m, .xs] (s.chunksSent m) = .next (s.chunksSent (m + 1)) := by
  have hstage := run_stage (s := s.chunksSent m) (k := m) hf
  have hsend := run_xs_good (s := { (s.chunksSent m).stage m with seqpc := (s.chunksSent m).seqpc + 1 })
    (readFrom_stage_serChunk (s := s.chunksSent m) hlen m) (serChunk_ne_nil hm) (length_serChunk_le _ _) hf hbus
  rw [runOps_cons_next hstage hf, runOps_cons_next hsend hf, stage_serChunk (s := s.chunksSent m) hlen m]
  simp only [runOps_nil, State.chunksSent, State.log, serEvents_succ, serScratch_succ, after_append, List.append_assoc]
  rfl

/-- The list of `SER` up to chunk `m`, on a bus that is good so far. -/
theorem runOps_chunks (hlen : s.cnt.toNat = s.srcc.length) {m : Nat} (hm : m ≤ chunkCount s.srcc.length)
    (hf : s.fault = false) (hbus : s.busGoodFor m) :
    runOps ((List.range m).flatMap fun k => [.stage k, .xs]) s = .next (s.chunksSent m) := by
  induction m with
  | zero => rw [chunksSent_zero]; rfl
  | succ m ih =>
    have hbefore := ih (by omega) fun j hj => hbus j (by omega)
    rw [List.range_succ, List.flatMap_append, runOps_append hbefore hf]
    exact runOps_chunk hlen hm hf (hbus m (by omega))

/-! ### O22: `SER` on a good bus -/

/-- Where it is accepted, `SER` drives its accepted request. -/
theorem exec_ser (colors : List Word) (hr : s.ready = true) :
    exec (.ser colors) s = (accepted (.ser colors) s).drive := whenReady_true hr

/-- R33, R62: of a stream whose length a count can state, acceptance latches that length. -/
theorem cnt_accepted_ser {colors : List Word} (hfits : colors.length < 2 ^ 32) (s : State) :
    (accepted (.ser colors) s).cnt.toNat = (accepted (.ser colors) s).srcc.length :=
  (toNat_ofNat_of_fits (decide_eq_true hfits)).symm

/-- R175: the list of an accepted `SER` has two micro-operations for each of its chunks. -/
theorem sequence_accepted_ser {colors : List Word} (hfits : colors.length < 2 ^ 32) (s : State) :
    (accepted (.ser colors) s).sequence
      = (List.range (chunkCount colors.length)).flatMap fun k => [.stage k, .xs] := by
  rw [sequence_ser rfl, seqSer, cnt_accepted_ser hfits]
  rfl

/-- On a good bus `SER` sends all its chunks and completes. -/
theorem exec_ser_good {colors : List Word} (hfits : colors.length < 2 ^ 32) (hr : s.ready = true)
    (hbus : s.busGoodFor (chunkCount colors.length)) :
    exec (.ser colors) s
      = .next ((accepted (.ser colors) s).chunksSent (chunkCount colors.length)).complete := by
  have hf := (ready_iff.mp hr).2.1
  have hops := runOps_chunks (s := accepted (.ser colors) s) (cnt_accepted_ser hfits s) (Nat.le_refl _) hf hbus
  rw [exec_ser colors hr, drive_of_runOps ((congrArg (runOps · _) (sequence_accepted_ser hfits s)).trans hops) hf]
  rfl

/-- Settles O22: `exec_ser_good`, with the state it answers written out field by field. -/
theorem serSendsItsChunks : Obligations.SerSendsItsChunks := by
  intro colors s hfits hr m hm hbus chunk hchunk
  obtain rfl : chunk = serChunk colors := funext hchunk
  obtain rfl : m = chunkCount colors.length := hm
  rw [exec_ser_good hfits hr hbus, ← Nat.zero_add (2 * chunkCount colors.length)]
  rfl

/-! ### O23: `SER` on a failing bus -/

/-- The state in which `SER` stops when the transfer of chunk `k` is the first to fail: the chunk is staged. -/
def State.chunkFailed (s : State) (k : Nat) : State :=
  State.failTransfer
    { (s.chunksSent k) with
      scr := serScratch s.srcc (k + 1) s.scr, slen := (serChunk s.srcc k).length, seqpc := s.seqpc + (2 * k + 1)
      dc := 1, xcnt := s.xcnt + k + 1 }
    (s.xcnt + k) 1 (serChunk s.srcc k)

/-- Where the bus fails chunk `k`, whatever was to follow is not run (R180). -/
theorem runOps_chunk_failed (hlen : s.cnt.toNat = s.srcc.length) {k : Nat} (hk : k < chunkCount s.srcc.length)
    (hf : s.fault = false) (hbad : s.busErr (s.xcnt + k) = true) (ms : List MicroOp) :
    runOps (.stage k :: .xs :: ms) (s.chunksSent k) = .next (s.chunkFailed k) := by
  have hstage := run_stage (s := s.chunksSent k) (k := k) hf
  have hread := readFrom_stage_serChunk (s := s.chunksSent k) hlen k
  have hsend := run_transfer_bad (s := { (s.chunksSent k).stage k with seqpc := (s.chunksSent k).seqpc + 1 })
    (m := .xs) hf (congrArg (fun bytes => some (1, bytes)) hread) (serChunk_ne_nil hk) hbad
  rw [runOps_cons_next hstage hf, runOps_cons_fault hsend rfl, stage_serChunk (s := s.chunksSent k) hlen k,
    State.chunkFailed, serScratch_succ]
  rfl

/-- The numbers below `k`, `k` itself, and those after it. -/
theorem range_split {k n : Nat} (h : k < n) : ∃ ks, List.range n = List.range k ++ k :: ks := by
  obtain ⟨r, rfl⟩ := Nat.exists_eq_add_of_lt h
  exact ⟨_, by rw [Nat.add_assoc, List.range_add, List.range_succ_eq_map, List.map_cons, Nat.add_zero]⟩

/-- On a bus whose first failing transfer is that of chunk `k`, `SER` stops there. -/
theorem exec_ser_failed {colors : List Word} {k : Nat} (hfits : colors.length < 2 ^ 32) (hr : s.ready = true)
    (hk : k < chunkCount colors.length) (hbus : s.busGoodFor k) (hbad : s.busErr (s.xcnt + k) = true) :
    exec (.ser colors) s = .next ((accepted (.ser colors) s).chunkFailed k) := by
  have hf := (ready_iff.mp hr).2.1
  have hlen := cnt_accepted_ser hfits s
  have hbefore := runOps_chunks (s := accepted (.ser colors) s) hlen hk.le hf hbus
  obtain ⟨ks, hsplit⟩ := range_split hk
  have hops : runOps (accepted (.ser colors) s).sequence (accepted (.ser colors) s)
      = .next ((accepted (.ser colors) s).chunkFailed k) := by
    rw [sequence_accepted_ser hfits, hsplit, List.flatMap_append, runOps_append hbefore hf, List.flatMap_cons]
    exact runOps_chunk_failed hlen hk hf hbad _
  rw [exec_ser colors hr, drive_of_fault hops rfl]

/-- Settles O23: `exec_ser_failed`, read field by field. -/
theorem serFaultsAtFirstFailingChunk : Obligations.SerFaultsAtFirstFailingChunk := by
  intro colors s k hfits hr hk hbus hbad
  have hcount : chunkCount colors.length = (colors.length + 511) / 512 := rfl
  refine ⟨_, exec_ser_failed hfits hr (by omega) hbus hbad, rfl, rfl, ?_, rfl, ?_, rfl, ?_⟩
  · show (serChunk colors k).length = _
    rw [length_serChunk, chunkSize, Config.chunkColors, Nat.mul_comm k 512]
  · show 0 + (2 * k + 1) = _
    rw [Nat.zero_add]
  · show FInfo.mk 1 (s.xcnt + k) 1 8 (0 + (2 * k + 1)) = _
    rw [Nat.zero_add]

/-! ### O33: the chunking law -/

theorem flatMap_sentBytes_serEvents (colors : List Word) :
    (serEvents colors (chunkCount colors.length)).flatMap Event.sentBytes = colors.flatMap be16 := by
  rw [serEvents, List.flatMap_map]
  exact flatMap_serChunk colors

/-- In the flat trace nothing is left of the chunks' bounds (R13). -/
theorem flatTrace_serEvents (colors : List Word) :
    flatTrace (serEvents colors (chunkCount colors.length)) = (colors.flatMap be16).map (FlatEvent.byte 1) := by
  rw [flatTrace, serEvents, List.flatMap_map, ← flatMap_serChunk, List.map_flatMap]
  rfl

theorem flatTrace_append (es fs : List Event) : flatTrace (es ++ fs) = flatTrace es ++ flatTrace fs :=
  List.flatMap_append

theorem chunkCount_add_le (m n : Nat) : chunkCount (m + n) ≤ chunkCount m + chunkCount n := by
  simp only [chunkCount, ceilDiv, Config.chunkColors]
  omega

/-- What a host sees of a `SER` on a good bus: TPC is ready again, and the events of the chunks are in `TRACE`. -/
theorem exec_ser_good_trace {colors : List Word} (hfits : colors.length < 2 ^ 32) (hr : s.ready = true)
    (hbus : s.busGoodFor (chunkCount colors.length)) :
    ∃ t, exec (.ser colors) s = .next t ∧ t.ready = true ∧ t.busErrs = s.busErrs
      ∧ t.xcnt = s.xcnt + chunkCount colors.length
      ∧ t.trace = s.trace ++ serEvents colors (chunkCount colors.length) := by
  obtain ⟨hlife, hf, -⟩ := ready_iff.mp hr
  exact ⟨_, exec_ser_good hfits hr hbus, ready_iff.mpr ⟨hlife, hf, rfl⟩, rfl, rfl, rfl⟩

/-- Settles O33: both ways the flat trace gains the bytes of all the colors, in order. -/
theorem chunkingLaw : Obligations.ChunkingLaw := by
  intro l1 l2 s hfits hr hbus
  rw [List.length_append] at hfits
  have hle := chunkCount_add_le l1.length l2.length
  obtain ⟨t, ht, -, -, -, httrace⟩ := exec_ser_good_trace (colors := l1 ++ l2) (by rwa [List.length_append]) hr
    fun j hj => hbus j (by rw [List.length_append] at hj; omega)
  obtain ⟨u, hu, hur, hubus, hux, hutrace⟩ := exec_ser_good_trace (colors := l1) (by omega) hr
    fun j hj => hbus j (by omega)
  obtain ⟨v, hv, -, -, -, hvtrace⟩ := exec_ser_good_trace (colors := l2) (by omega) hur
    (busGoodFor_of_xcnt hubus hux hbus)
  refine ⟨t, u, v, ht, hu, hv, ?_, ?_⟩
  · rw [httrace, List.flatMap_append, flatMap_sentBytes_serEvents]
  · rw [httrace, hvtrace, hutrace, flatTrace_append, flatTrace_append, flatTrace_append, flatTrace_serEvents,
      flatTrace_serEvents, flatTrace_serEvents, List.flatMap_append, List.map_append, List.append_assoc]

/-! ### O39: what `SER` leaves unchanged -/

/-- The state with every element blanked that `SER` may write: those of the wire, its operands and the scratch
buffer. -/
def State.offChunks (s : State) : State := { s.offWire with cnt := 0, srcc := [], scr := [], slen := 0 }

/-- R175: the list of `SER` only stages and sends chunks. -/
theorem mem_seqSer {m : MicroOp} (h : m ∈ seqSer s) : (∃ k, m = .stage k) ∨ m = .xs := by
  obtain ⟨k, -, hm⟩ := List.mem_flatMap.mp h
  simp only [List.mem_cons, List.not_mem_nil, or_false] at hm
  exact hm.imp_left fun h => ⟨k, h⟩

/-- `XS`, good or failed, writes `SLEN` and nothing else off the wire; the bytes of the scratch buffer stay. -/
theorem run_xs_offChunks (hf : s.fault = false) (h : MicroOp.xs.run s = .next t) :
    t.offChunks = s.offChunks ∧ t.scr = s.scr := by
  rcases run_cases hf h with ⟨hq, -⟩ | ⟨dc, bytes, -, -, ⟨-, -, rfl⟩ | ⟨-, rfl⟩⟩
  · exact nomatch hq
  · exact ⟨rfl, rfl⟩
  · exact ⟨rfl, rfl⟩

/-- R175, R176: staging a chunk of `n` colors stores below `2 * min(n, 512)`. -/
theorem run_stage_offChunks {k : Nat} (hlen : s.cnt.toNat = s.srcc.length) (hf : s.fault = false)
    (h : (MicroOp.stage k).run s = .next t) :
    t.offChunks = s.offChunks
      ∧ ∀ a, 2 * min s.srcc.length 512 ≤ a → Scratch.read t.scr a = Scratch.read s.scr a := by
  obtain rfl := Host.Outcome.next.inj ((run_stage hf).symm.trans h)
  refine ⟨rfl, fun a ha => read_stage_other hlen.le k ?_⟩
  rw [hlen, chunkSize, Config.chunkColors]
  omega

/-- What `SER` leaves alone while it runs, from the state `s` in which it was presented. -/
structure KeptBySer (colors : List Word) (s u : State) : Prop where
  stream : u.srcc = colors
  count : u.cnt.toNat = colors.length
  offChunks : u.offChunks = s.offChunks
  above : ∀ a, 2 * min colors.length 512 ≤ a → Scratch.read u.scr a = Scratch.read s.scr a

theorem run_keptBySer {colors : List Word} {u v : State} {m : MicroOp} (hm : (∃ k, m = .stage k) ∨ m = .xs)
    (hu : KeptBySer colors s u) (hf : u.fault = false) (h : m.run u = .next v) : KeptBySer colors s v := by
  obtain ⟨rfl, hcount, hoff, habove⟩ := hu
  obtain ⟨-, -, hcnt, -, hsrcc, -⟩ := run_frame hf h
  rcases hm with ⟨k, rfl⟩ | rfl
  · obtain ⟨hv, hread⟩ := run_stage_offChunks hcount hf h
    exact ⟨hsrcc, hcnt ▸ hcount, hv.trans hoff, fun a ha => (hread a ha).trans (habove a ha)⟩
  · obtain ⟨hv, hscr⟩ := run_xs_offChunks hf h
    exact ⟨hsrcc, hcnt ▸ hcount, hv.trans hoff, fun a ha => hscr ▸ habove a ha⟩

/-- Beyond its own elements `SER` changes nothing, whether it is accepted or not, completes or faults. -/
theorem exec_ser_offChunks {colors : List Word} (hfits : colors.length < 2 ^ 32) (h : exec (.ser colors) s = .next t) :
    t.offChunks = s.offChunks
      ∧ ∀ a, 2 * min colors.length 512 ≤ a → Scratch.read t.scr a = Scratch.read s.scr a := by
  rcases exec_cases h with ⟨-, rfl⟩ | ⟨-, r, g, b, hi, -⟩ | ⟨hr, -, hd⟩
  · exact ⟨rfl, fun _ _ => rfl⟩
  · exact nomatch hi
  · obtain ⟨-, -, hoff, habove⟩ : KeptBySer colors s t :=
      drive_keeps (fun m hm u v => run_keptBySer (mem_seqSer (sequence_ser (s := accepted (.ser colors) s) rfl ▸ hm)))
        (fun u hu => ⟨hu.stream, hu.count, hu.offChunks, hu.above⟩)
        ⟨rfl, cnt_accepted_ser hfits s, rfl, fun _ _ => rfl⟩ (ready_iff.mp hr).2.1 hd
    exact ⟨hoff, habove⟩

/-- Settles O39: `exec_ser_offChunks`, read field by field. -/
theorem frameOfSer : Obligations.FrameOfSer := by
  intro colors s t hfits h
  obtain ⟨hoff, habove⟩ := exec_ser_offChunks hfits h
  have agree : ∀ {α : Type} (f : State → α), f t.offChunks = f s.offChunks := fun f => congrArg f hoff
  exact ⟨agree State.cfg, agree State.res, agree State.pstate, agree State.bld, agree State.life, agree State.x0,
    agree State.x1, agree State.y0, agree State.y1, agree State.cr, agree State.cg, agree State.cb, agree State.pk,
    agree State.cmdb, agree State.srcb, agree State.port, agree State.busErrs, habove⟩

end Sys2Proof.Machine
end

section
/-! PROOFS. From a staged state no step stops with a fault of the model (O49). -/

namespace Sys2Proof.Machine

variable {s : State}

/-- R126: where the stream has the counted length, the list of `DAT` holds no empty transfer. -/
theorem seqDat_neverEmpty_of_length (h : s.srcb.length = s.cnt.toNat) :
    (seqDat s).all MicroOp.neverEmpty = true := by
  have hlatched : s.latchBytes s.srcb = s := by
    rw [State.latchBytes, h, BitVec.ofNat_toNat, BitVec.setWidth_eq]
  exact hlatched ▸ seqDat_neverEmpty s.srcb s

/-- Outside `SER` the list in progress holds no empty transfer. -/
theorem sequence_neverEmpty (ho : s.opr ≠ 8) (hdat : s.opr = 2 → s.srcb.length = s.cnt.toNat) :
    s.sequence.all MicroOp.neverEmpty = true := by
  unfold State.sequence
  split
  case h_2 h => exact seqDat_neverEmpty_of_length (hdat (BitVec.eq_of_toNat_eq h))
  case h_7 h => exact absurd (BitVec.eq_of_toNat_eq h) ho
  all_goals rfl

/-- A busy TPC that keeps the staging invariant completes, or runs a micro-operation that answers: in `SER` it stages
a chunk or sends the one just staged (R175), elsewhere no micro-operation transfers an empty list. -/
theorem microStep_answers (hs : s.StagingInv) (hf : s.fault = false) (hb : s.busy = true) :
    ∃ t, microStep s = .next t := by
  obtain ⟨-, hdat, -, hstep⟩ := (stagingInv_iff_of_busy hb).mp hs
  rcases hm : s.sequence[s.seqpc]? with _ | m
  · exact ⟨_, microStep_last hm⟩
  · rw [microStep_op hm]
    by_cases ho : s.opr = 8
    · obtain ⟨k, -, -, rfl, -⟩ | ⟨rfl, -⟩ := sequence_ser_cases ho hm
      · exact ⟨_, run_stage hf⟩
      · obtain ⟨-, hslen, -⟩ | ⟨hne, -⟩ := hstep
        · refine run_answers fun dc bytes h => ?_
          cases h
          exact List.ne_nil_of_length_pos (by rwa [Scratch.length_readFrom])
        · exact absurd hm hne
    · exact run_answers_of_neverEmpty
        (List.all_eq_true.mp (sequence_neverEmpty ho hdat) m (List.mem_of_getElem? hm)) s

/-- Settles O49: `microStep_answers` for a busy TPC; an idle one starts an instruction, which answers. -/
theorem stagedStepNeverStops : Obligations.StagedStepNeverStops := by
  intro s r hs
  cases hh : s.halted
  · cases hb : s.busy
    · have hr : s.ready = true := ready_iff.mpr ⟨(halted_eq_false_iff.mp hh).2, (halted_eq_false_iff.mp hh).1, hb⟩
      rcases hfe : fetch s with _ | _ | i | _ | e
      case runs =>
        obtain ⟨t, ht⟩ := everyInstructionAnswers i s.consume
        rw [step, serve_runs hr hfe, ht]
        exact nofun
      all_goals simp [step, serve, hh, hb, hfe]
    · obtain ⟨t, ht⟩ := microStep_answers hs (halted_eq_false_iff.mp hh).1 hb
      rw [step, serve_busy hh hb, ht]
      exact nofun
  · rw [step, serve_halted hh]
    exact nofun

end Sys2Proof.Machine
end

section
/-! PROOFS. What the wire carries: the panel follows `TRACE` (O48), and the Panel Controller and the Color Codec send no
command byte outside the thirteen opcodes (O41). -/

namespace Sys2Proof.Machine

variable {s t : State}

/-! ### O48: the panel follows `TRACE` -/

/-- Every event is appended to `TRACE` and shown to the panel (R13, R205). -/
theorem emit_keeps_panelInv {d : PanelDraw} (hs : s.PanelInv d) (e : Event) : (s.emit e).PanelInv d := by
  have hpanel : s.panel = d.panel.after s.cfg s.trace := hs
  show s.panel.onEvent s.cfg e = d.panel.after s.cfg (s.trace ++ [e])
  rw [after_append, ← hpanel]
  rfl

/-- A micro-operation reaches the panel by its event alone, whether it transfers nothing, completes or faults. -/
theorem run_keeps_panelInv {d : PanelDraw} {m : MicroOp} (hs : s.PanelInv d) (hf : s.fault = false)
    (h : m.run s = .next t) : t.PanelInv d := by
  rcases run_cases hf h with ⟨-, rfl⟩ | ⟨dc, bytes, -, -, ⟨-, -, rfl⟩ | ⟨-, rfl⟩⟩
  · cases m with
    | resl => exact emit_keeps_panelInv hs (.res 0)
    | resh => exact emit_keeps_panelInv hs (.res 1)
    | wait ms => exact emit_keeps_panelInv hs (.wait ms)
    | blset duty => exact emit_keeps_panelInv hs (.bl duty)
    | _ => exact hs
  · have hsent := emit_keeps_panelInv hs (.xfer dc bytes)
    cases m <;> exact hsent
  · have hfailed := emit_keeps_panelInv hs (.xferFail dc bytes)
    cases m <;> exact hfailed

/-- Settles O48: of the moves a step is made of, only a micro-operation touches `TRACE` or the panel, and
`run_keeps_panelInv` says the panel sees what `TRACE` gains. -/
theorem stepKeepsPanelOfTrace : Obligations.StepKeepsPanelOfTrace := by
  intro d s t hs h
  refine step_keeps (P := fun u => u.PanelInv d) hs h (fun _ hu => hu) (fun _ hu => hu) (fun _ _ hu => hu)
    (fun _ hu => hu) (fun i u hu => ?_) (fun _ _ _ => run_keeps_panelInv)
  cases i <;> exact hu

/-! ### O41: the command set is closed -/

/-- An event that, if it is a command transfer, completed or failed, sends the opcode of one of the thirteen (R203). -/
def Event.NamedCommand (cfg : Cfg) : Event → Prop
  | .xfer dc bytes => dc = 0 → ∃ c ∈ WireCommand.all, bytes = [cfg.opcode c]
  | .xferFail dc bytes => dc = 0 → ∃ c ∈ WireCommand.all, bytes = [cfg.opcode c]
  | .res _ => True
  | .wait _ => True
  | .bl _ => True

/-- A micro-operation that, if it is `XC`, sends the opcode of one of the thirteen. -/
def MicroOp.NamedCommand (cfg : Cfg) (m : MicroOp) : Prop := ∀ b, m = .xc b → ∃ c, b = cfg.opcode c

/-- `t` has the trace of `s` with events that name every command they send. -/
def AddsNamedCommands (s t : State) : Prop := ∃ es, t.trace = s.trace ++ es ∧ ∀ e ∈ es, e.NamedCommand s.cfg

theorem addsNamedCommands_of_trace_eq (h : t.trace = s.trace) : AddsNamedCommands s t :=
  ⟨[], h.trans (List.append_nil _).symm, fun _ he => absurd he List.not_mem_nil⟩

theorem addsNamedCommands_of_event {e : Event} (h : t.trace = s.trace ++ [e]) (he : e.NamedCommand s.cfg) :
    AddsNamedCommands s t :=
  ⟨[e], h, fun _ he' => List.mem_singleton.mp he' ▸ he⟩

theorem AddsNamedCommands.trans {u : State} (hst : AddsNamedCommands s t) (hcfg : t.cfg = s.cfg)
    (htu : AddsNamedCommands t u) : AddsNamedCommands s u := by
  obtain ⟨es, hes, hnamed⟩ := hst
  obtain ⟨fs, hfs, hnamed'⟩ := htu
  exact ⟨es ++ fs, by rw [hfs, hes, List.append_assoc], List.forall_mem_append.mpr ⟨hnamed, hcfg ▸ hnamed'⟩⟩

/-- Only `XC` makes a command transfer, of its one byte (R96). -/
theorem named_of_transfer {cfg : Cfg} {m : MicroOp} {bytes : List Byte} (hm : m.NamedCommand cfg)
    (h : m.transfer s = some (0, bytes)) : ∃ c ∈ WireCommand.all, bytes = [cfg.opcode c] := by
  cases m with
  | xc b =>
    cases h
    obtain ⟨c, rfl⟩ := hm b rfl
    exact ⟨c, c.mem_all, rfl⟩
  | _ => simp [MicroOp.transfer] at h

/-- A micro-operation adds a named command to `TRACE`, or no command. -/
theorem run_addsNamedCommands {m : MicroOp} (hm : m.NamedCommand s.cfg) (hf : s.fault = false)
    (h : m.run s = .next t) : AddsNamedCommands s t := by
  rcases run_cases hf h with ⟨-, rfl⟩ | ⟨dc, bytes, htr, -, ⟨-, -, rfl⟩ | ⟨-, rfl⟩⟩
  · rcases quiet_trace m s with ht | ⟨e, ht, he⟩
    · exact addsNamedCommands_of_trace_eq ht
    · refine addsNamedCommands_of_event ht ?_
      cases e with
      | xfer dc bytes => cases he
      | xferFail dc bytes => cases he
      | _ => trivial
  · refine addsNamedCommands_of_event (e := .xfer dc bytes) (by simp) fun hdc => ?_
    exact named_of_transfer hm (hdc ▸ htr)
  · refine addsNamedCommands_of_event (e := .xferFail dc bytes) (by simp) fun hdc => ?_
    exact named_of_transfer hm (hdc ▸ htr)

/-- So does an instruction whose list sends named commands alone, whether it is accepted or not, completes or faults. -/
theorem exec_addsNamedCommands {i : Instr} (hp : ∀ r g b, i ≠ .pack r g b)
    (hlist : ∀ m ∈ (accepted i s).sequence, m.NamedCommand s.cfg) (h : exec i s = .next t) :
    AddsNamedCommands s t := by
  have hrun : ∀ m ∈ (accepted i s).sequence, ∀ u v, u.cfg = s.cfg ∧ AddsNamedCommands s u → u.fault = false →
      m.run u = .next v → v.cfg = s.cfg ∧ AddsNamedCommands s v := by
    rintro m hm u v ⟨hcfg, hadds⟩ huf hv
    obtain ⟨hvcfg, -⟩ := run_frame huf hv
    exact ⟨hvcfg.trans hcfg, hadds.trans hcfg (run_addsNamedCommands (hcfg ▸ hlist m hm) huf hv)⟩
  exact (exec_keeps_of_mem (P := fun u => u.cfg = s.cfg ∧ AddsNamedCommands s u) hp
    ⟨rfl, addsNamedCommands_of_trace_eq rfl⟩
    ⟨accepted_cfg i s, addsNamedCommands_of_trace_eq (accepted_trace i s)⟩ hrun (fun _ hu => hu) h).2

/-- R146: the ten commands of `INIT`, the one of its embedded reset first. -/
theorem namedCommand_of_mem_seqInit : ∀ m ∈ seqInit s, m.NamedCommand s.cfg := by
  simp only [seqInit, seqRst, seqConfigure, MicroOp.NamedCommand, List.forall_mem_append, List.forall_mem_cons,
    List.not_mem_nil, MicroOp.xc.injEq, forall_eq', reduceCtorEq, false_imp_iff, implies_true, and_true, true_and]
  exact ⟨⟨.swreset, rfl⟩, ⟨.slpout, rfl⟩, ⟨.colmod, rfl⟩, ⟨.madctl, rfl⟩, ⟨.porctrl, rfl⟩, ⟨.gctrl, rfl⟩,
    ⟨.vcoms, rfl⟩, ⟨.invon, rfl⟩, ⟨.noron, rfl⟩, ⟨.dispon, rfl⟩⟩

/-- R154: the two commands of `WIN`. -/
theorem namedCommand_of_mem_seqWin : ∀ m ∈ seqWin s, m.NamedCommand s.cfg := by
  simp only [seqWin, MicroOp.NamedCommand, List.forall_mem_cons, List.not_mem_nil, MicroOp.xc.injEq, forall_eq',
    reduceCtorEq, false_imp_iff, implies_true, and_true, true_and]
  exact ⟨⟨.caset, rfl⟩, ⟨.raset, rfl⟩⟩

/-- R161: the one command of `RAMWR`. -/
theorem namedCommand_of_mem_seqRamwr : ∀ m ∈ seqRamwr s, m.NamedCommand s.cfg := by
  simp only [seqRamwr, MicroOp.NamedCommand, List.forall_mem_singleton, MicroOp.xc.injEq, forall_eq']
  exact ⟨.ramwr, rfl⟩

/-- R175: `SER` sends no command. -/
theorem namedCommand_of_mem_seqSer (m : MicroOp) (h : m ∈ seqSer s) : m.NamedCommand s.cfg := by
  intro b hb
  rcases mem_seqSer h with ⟨k, rfl⟩ | rfl <;> cases hb

/-- The lists of the five operations name every command they send (R203). -/
theorem namedCommand_of_mem_sequence {i : Instr}
    (hi : i = .rst ∨ i = .init ∨ (∃ x0 x1 y0 y1, i = .win x0 x1 y0 y1) ∨ i = .ramwr ∨ ∃ cs, i = .ser cs) :
    ∀ m ∈ (accepted i s).sequence, m.NamedCommand s.cfg := by
  rw [← accepted_cfg i s]
  rcases hi with rfl | rfl | ⟨x0, x1, y0, y1, rfl⟩ | rfl | ⟨cs, rfl⟩
  · rw [sequence_rst rfl]
    exact fun m hm => namedCommand_of_mem_seqInit m (List.mem_append_left _ hm)
  · rw [sequence_init rfl]
    exact namedCommand_of_mem_seqInit
  · rw [sequence_win rfl]
    exact namedCommand_of_mem_seqWin
  · rw [sequence_ramwr rfl]
    exact namedCommand_of_mem_seqRamwr
  · rw [sequence_ser rfl]
    exact namedCommand_of_mem_seqSer

/-- Settles O41: the lists of the five operations name every command they send, and no other command transfer reaches
`TRACE`. -/
theorem commandSetIsClosed : Obligations.CommandSetIsClosed := by
  intro i s t hi h
  have hp : ∀ r g b, i ≠ .pack r g b := by
    rcases hi with rfl | rfl | ⟨x0, x1, y0, y1, rfl⟩ | rfl | ⟨cs, rfl⟩ <;> exact fun _ _ _ => nofun
  obtain ⟨es, hes, hnamed⟩ := exec_addsNamedCommands hp (namedCommand_of_mem_sequence hi) h
  exact ⟨es, hes, fun bytes hsent => hsent.elim (hnamed _ · rfl) (hnamed _ · rfl)⟩

end Sys2Proof.Machine
end

section
/-! PROOFS. The panel-side contract: the window that `WIN` sets (O54), the write pointer that `RAMWR` sets (O55), and
one pixel (O56). -/

namespace Sys2Proof.Machine

variable {cfg : Cfg} {p : Panel} {s t : State}

/-! ### Drawable panels -/

theorem drawable_iff : p.drawable cfg = true
    ↔ p.trust = .trusted ∧ p.due = 0 ∧ p.isActive cfg = true ∧ p.pending = none := by
  simp [Panel.drawable, Panel.described, and_assoc]

/-- Discarding a half-received pixel touches the byte latch and the frame memory alone (R207). -/
theorem discardHalf_eq (p : Panel) : p.discardHalf = { p with half := none, mem := p.discardHalf.mem } := by
  unfold Panel.discardHalf
  split
  · rename_i hhalf
    rw [← hhalf]
  · split <;> rfl

theorem discardHalf_of_half_none (h : p.half = none) : p.discardHalf = p := by rw [Panel.discardHalf, h]

/-- The command byte that reaches a panel between frames ends its pixel stream (R207). -/
theorem endStream_eq (h : p.pending = none) :
    p.endStream = { p with half := none, writing := some false, mem := p.discardHalf.mem } := by
  rw [Panel.endStream, if_neg (by simp [h]), discardHalf_eq]

theorem endStream_mem (h : p.pending = none) (hhalf : p.half = none) : p.endStream.mem = p.mem := by
  rw [endStream_eq h, discardHalf_of_half_none hhalf]

theorem idle_endStream (h : p.drawable cfg = true) : p.endStream.Idle := by
  obtain ⟨htrust, hdue, -, hpending⟩ := drawable_iff.mp h
  rw [endStream_eq hpending]
  exact ⟨htrust, hdue, hpending, rfl, rfl⟩

theorem isActive_endStream (h : p.drawable cfg = true) : p.endStream.isActive cfg = true := by
  obtain ⟨-, -, hactive, hpending⟩ := drawable_iff.mp h
  rw [endStream_eq hpending]
  exact hactive

/-- A drawable panel takes a command as it would after the end of its pixel stream (R207). -/
theorem after_command_of_drawable (hv : cfg.valid = true) (h : p.drawable cfg = true) (c : WireCommand)
    (es : List Event) :
    p.after cfg (.xfer 0 [cfg.opcode c] :: es) = p.endStream.after cfg (.xfer 0 [cfg.opcode c] :: es) := by
  obtain ⟨htrust, hdue, -, -⟩ := drawable_iff.mp h
  have ht : p.trust ≠ .refused := by rw [htrust]; decide
  rw [after_cons, onEvent_command hv ht hdue, after_command hv (idle_endStream h)]

/-! ### O54: the window -/

/-- R11, R208: the two bytes of a word, high byte first, are that word. -/
theorem ofBytes_be16 (w : Word) : ofBytes (w.extractLsb' 8 8) (w.extractLsb' 0 8) = w := by
  have hsplit : w.extractLsb' 8 8 ++ w.extractLsb' 0 8 = w.extractLsb' 0 16 :=
    BitVec.extractLsb'_append_extractLsb'_eq_extractLsb' (start₁ := 0) (start₂ := 8) (len₁ := 8) (len₂ := 8) rfl
  rw [ofBytes, hsplit, BitVec.extractLsb'_eq_self]

theorem applyPayload_caset (a b : Word) (p : Panel) :
    Panel.applyPayload .caset (be16 a ++ be16 b) p = { p with cols := some (a, b) } := by
  simp only [be16, List.cons_append, List.nil_append, Panel.applyPayload, ofBytes_be16]

theorem applyPayload_raset (a b : Word) (p : Panel) :
    Panel.applyPayload .raset (be16 a ++ be16 b) p = { p with rows := some (a, b) } := by
  simp only [be16, List.cons_append, List.nil_append, Panel.applyPayload, ofBytes_be16]

/-- The events of a `WIN` whose latches hold these four words (R154, R159). -/
def winEvents (cfg : Cfg) (xs xe ys ye : Word) : List Event :=
  [.xfer 0 [cfg.opcCaset], .xfer 1 (be16 xs ++ be16 xe), .xfer 0 [cfg.opcRaset], .xfer 1 (be16 ys ++ be16 ye)]

/-- R206: they set both ranges of a drawable panel, and end its pixel stream. -/
theorem after_winEvents (hv : cfg.valid = true) (h : p.drawable cfg = true) (xs xe ys ye : Word) :
    p.after cfg (winEvents cfg xs xe ys ye) = { p.endStream with cols := some (xs, xe), rows := some (ys, ye) } := by
  have hidle := idle_endStream h
  have hactive := isActive_endStream h
  have hidle' : Panel.Idle { p.endStream with cols := some (xs, xe) } :=
    ⟨hidle.trust, hidle.due, hidle.pending, hidle.half, hidle.writing⟩
  refine (after_command_of_drawable hv h .caset _).trans ?_
  refine (after_frame hv hidle (c := .caset) (n := p.endStream.due) (if_pos hactive) (applyPayload_caset xs xe _)
    (List.cons_ne_nil _ _) rfl _).trans ?_
  exact after_frame hv hidle' (c := .raset) (n := p.endStream.due) (if_pos hactive) (applyPayload_raset ys ye _)
    (List.cons_ne_nil _ _) rfl []

/-! ### Operations on a good bus -/

/-- What an operation that completed on a good bus left of `s`: TPC ready again, `k` transfers on, and the panel having
seen the events `es`. -/
structure CompletedWith (k : Nat) (es : List Event) (s t : State) : Prop where
  ready : t.ready = true
  cfg : t.cfg = s.cfg
  busErrs : t.busErrs = s.busErrs
  xcnt : t.xcnt = s.xcnt + k
  panel : t.panel = s.panel.after s.cfg es

theorem exec_win_completed (x0 x1 y0 y1 : Word) (hr : s.ready = true) (hbus : s.busGoodFor 4) :
    ∃ t, exec (.win x0 x1 y0 y1) s = .next t
      ∧ CompletedWith 4 (winEvents s.cfg (translateX s.cfg x0) (translateX s.cfg x1) (translateY s.cfg y0)
          (translateY s.cfg y1)) s t := by
  obtain ⟨hlife, hf, -⟩ := ready_iff.mp hr
  have hexec := winSendsClampedWindow x0 x1 y0 y1 s hr hbus (translateX s.cfg x0) (translateX s.cfg x1)
    (translateY s.cfg y0) (translateY s.cfg y1)
    (winEvents s.cfg (translateX s.cfg x0) (translateX s.cfg x1) (translateY s.cfg y0) (translateY s.cfg y1))
    (controllerCoord_eq_ofNat _ _ _) (controllerCoord_eq_ofNat _ _ _) (controllerCoord_eq_ofNat _ _ _)
    (controllerCoord_eq_ofNat _ _ _) rfl
  exact ⟨_, hexec, ready_iff.mpr ⟨hlife, hf, rfl⟩, rfl, rfl, rfl, by dsimp only⟩

theorem exec_ramwr_completed (hr : s.ready = true) (hbus : s.busErr s.xcnt = false) :
    ∃ t, exec .ramwr s = .next t ∧ CompletedWith 1 [.xfer 0 [s.cfg.opcRamwr]] s t := by
  obtain ⟨hlife, hf, -⟩ := ready_iff.mp hr
  exact ⟨_, ramwrSendsMemoryWrite s hr hbus, ready_iff.mpr ⟨hlife, hf, rfl⟩, rfl, rfl, rfl, rfl⟩

/-- Settles O54: the events of `WIN` on a drawable panel are `after_winEvents`. -/
theorem winSetsPanelWindow : Obligations.WinSetsPanelWindow := by
  intro x0 x1 y0 y1 s hr hbus hv hdraw
  obtain ⟨t, hexec, hdone⟩ := exec_win_completed x0 x1 y0 y1 hr hbus
  obtain ⟨-, -, -, hpending⟩ := drawable_iff.mp hdraw
  have hidle := idle_endStream hdraw
  refine ⟨t, hexec, ?_⟩
  rw [hdone.panel, hdone.cfg, after_winEvents hv hdraw]
  exact ⟨rfl, rfl, hidle.writing, hidle.half,
    drawable_iff.mpr ⟨hidle.trust, hidle.due, isActive_endStream hdraw, hidle.pending⟩, endStream_mem hpending⟩

/-! ### O55: the write pointer -/

/-- R207: the memory-write command on a drawable panel. -/
theorem after_ramwr (hv : cfg.valid = true) (h : p.drawable cfg = true) :
    p.after cfg [.xfer 0 [cfg.opcRamwr]] = { p.endStream with writing := some true, ptr := p.origin } := by
  have horigin : p.endStream.origin = p.origin := by
    obtain ⟨-, -, -, hpending⟩ := drawable_iff.mp h
    rw [endStream_eq hpending]
    rfl
  refine (after_command_of_drawable hv h .ramwr []).trans ?_
  refine (after_command hv (idle_endStream h) .ramwr []).trans ?_
  rw [← horigin]
  exact if_pos (isActive_endStream h)

theorem origin_of_window {cols rows : Word × Word} (hc : p.cols = some cols) (hr : p.rows = some rows) :
    p.origin = some (cols.1.toNat, rows.1.toNat) := by rw [Panel.origin, hc, hr]

/-- A command byte that ends a pixel stream keeps the window (R206). -/
theorem endStream_window (h : p.pending = none) : p.endStream.cols = p.cols ∧ p.endStream.rows = p.rows := by
  rw [endStream_eq h]
  exact ⟨rfl, rfl⟩

/-- Settles O55: the event of `RAMWR` on a drawable panel is `after_ramwr`. -/
theorem ramwrStartsAtWindowOrigin : Obligations.RamwrStartsAtWindowOrigin := by
  intro s cols rows hr hbus hv hdraw hcols hrows
  obtain ⟨t, hexec, hdone⟩ := exec_ramwr_completed hr hbus
  obtain ⟨-, -, -, hpending⟩ := drawable_iff.mp hdraw
  obtain ⟨hcols', hrows'⟩ := endStream_window hpending
  have hidle := idle_endStream hdraw
  refine ⟨t, hexec, ?_⟩
  rw [hdone.panel, hdone.cfg, after_ramwr hv hdraw]
  exact ⟨rfl, hidle.half, origin_of_window hcols hrows, hcols'.trans hcols, hrows'.trans hrows,
    drawable_iff.mpr ⟨hidle.trust, hidle.due, isActive_endStream hdraw, hidle.pending⟩⟩

/-! ### O56: one pixel -/

/-- The panel takes pixels into the window of ranges `cols` and `rows`, and no half of one is held (R207, R208). -/
structure Panel.Painting (p : Panel) (cols rows : Word × Word) : Prop where
  trust : p.trust ≠ .refused
  writing : p.writing = some true
  half : p.half = none
  cols : p.cols = some cols
  rows : p.rows = some rows

/-- R208: a pair of data bytes inside an open window. -/
theorem byte_pixel_pair {cols rows : Word × Word} {col row : Nat} (h : p.Painting cols rows)
    (hptr : p.ptr = some (col, row)) (hopen : Panel.windowOpen cfg cols rows row = true) (hi lo : Byte) :
    (p.byte cfg 1 hi).byte cfg 1 lo =
      { p with
        mem := Memory.write (Memory.erase p.mem (pixelAddr col row)) (pixelAddr col row) (ofBytes hi lo)
        ptr := some (Panel.nextPtr cols col row) } := by
  rw [byte_pixel_high h.trust h.writing h.cols h.rows hptr hopen h.half,
    byte_pixel_low (p := { p with half := some hi, mem := _ }) h.trust h.writing h.cols h.rows hptr hopen rfl,
    ← h.half]

/-- Storing a pixel leaves every other address as it was. -/
theorem read_write_erase_other (m : List (Nat × Word)) {a b : Nat} (c : Word) (h : b ≠ a) :
    Memory.read (Memory.write (Memory.erase m a) a c) b = Memory.read m b := by
  rw [Memory.read_write_other _ _ h, Memory.read_erase_other _ h]

/-- Settles O56: `byte_pixel_pair`, read field by field. -/
theorem pixelPairStoresAndAdvances : Obligations.PixelPairStoresAndAdvances := by
  intro cfg p hi lo cols rows col row ht hw hh hc hr hptr hopen q hq
  rw [byte_pixel_pair ⟨ht, hw, hh, hc, hr⟩ hptr hopen] at hq
  subst hq
  exact ⟨Memory.read_write_same _ _ _, fun a ha => read_write_erase_other _ _ ha, rfl, hh, hw⟩

end Sys2Proof.Machine
end

section
/-! PROOFS. A stream of colors into a window of the panel, and `FLUSH` (O57). -/

namespace Sys2Proof.Machine

variable {cfg : Cfg} {p : Panel} {s t : State} {cols rows : Word × Word}

/-! ### The pixels of a window -/

/-- How many coordinates a range in order holds. -/
def rangeLength (r : Word × Word) : Nat := r.2.toNat + 1 - r.1.toNat

/-- The controller column and row of pixel `k` of a stream into a window, row by row from its origin (R207, R208). -/
def windowPixel (cols rows : Word × Word) (k : Nat) : Nat × Nat :=
  (cols.1.toNat + k % rangeLength cols, rows.1.toNat + k / rangeLength cols)

/-- Where that pixel is in the frame memory. -/
def windowAddr (cols rows : Word × Word) (k : Nat) : Nat :=
  pixelAddr (windowPixel cols rows k).1 (windowPixel cols rows k).2

theorem rangeLength_pos {row : Nat} (h : Panel.windowOpen cfg cols rows row = true) : 0 < rangeLength cols := by
  simp only [Panel.windowOpen, Bool.and_eq_true, decide_eq_true_eq] at h
  unfold rangeLength
  omega

/-- A window that is open at one row is open at each of its rows (R209). -/
theorem windowOpen_row {row k : Nat} (h : Panel.windowOpen cfg cols rows row = true) (hk : k < rangeLength rows) :
    Panel.windowOpen cfg cols rows (rows.1.toNat + k) = true := by
  simp only [Panel.windowOpen, Bool.and_eq_true, decide_eq_true_eq] at h ⊢
  unfold rangeLength at hk
  omega

theorem windowPixel_zero (cols rows : Word × Word) :
    windowPixel cols rows 0 = (cols.1.toNat, rows.1.toNat) := by
  rw [windowPixel, Nat.zero_mod, Nat.zero_div, Nat.add_zero, Nat.add_zero]

/-- The write pointer runs through the window pixel by pixel: to the next column, or past the last one to the next row
(R208). -/
theorem nextPtr_windowPixel (hpos : 0 < rangeLength cols) (k : Nat) :
    Panel.nextPtr cols (windowPixel cols rows k).1 (windowPixel cols rows k).2 = windowPixel cols rows (k + 1) := by
  have hk := Nat.mod_add_div k (rangeLength cols)
  have hlt := Nat.mod_lt k hpos
  have hend : cols.1.toNat + k % rangeLength cols = cols.2.toNat ↔ k % rangeLength cols + 1 = rangeLength cols := by
    unfold rangeLength at *
    omega
  rw [Panel.nextPtr, windowPixel]
  by_cases hlast : k % rangeLength cols + 1 = rangeLength cols
  · obtain ⟨hdiv, hmod⟩ := (Nat.div_mod_unique (a := k + 1) (c := 0) (d := k / rangeLength cols + 1) hpos).mpr
      ⟨by rw [Nat.mul_succ]; omega, hpos⟩
    rw [if_pos (hend.mpr hlast), windowPixel, hdiv, hmod]
    rfl
  · obtain ⟨hdiv, hmod⟩ := (Nat.div_mod_unique (a := k + 1) (c := k % rangeLength cols + 1)
      (d := k / rangeLength cols) hpos).mpr ⟨by omega, by omega⟩
    rw [if_neg (mt hend.mp hlast), windowPixel, hdiv, hmod]
    rfl

/-- Different pixels of a window have different addresses. -/
theorem windowAddr_inj (hpos : 0 < rangeLength cols) {j k : Nat}
    (h : windowAddr cols rows j = windowAddr cols rows k) : j = k := by
  have hcol : ∀ i, (windowPixel cols rows i).1 < 65536 := by
    intro i
    have hlt := Nat.mod_lt i hpos
    have hmax := cols.2.isLt
    show cols.1.toNat + i % rangeLength cols < 65536
    unfold rangeLength at *
    omega
  obtain ⟨hc, hr⟩ := pixelAddr_inj (hcol j) (hcol k) h
  have hmod : j % rangeLength cols = k % rangeLength cols := Nat.add_left_cancel hc
  have hdiv : j / rangeLength cols = k / rangeLength cols := Nat.add_left_cancel hr
  rw [← Nat.div_add_mod j (rangeLength cols), hmod, hdiv, Nat.div_add_mod]

/-! ### A stream of colors -/

/-- R208: the two bytes of a color store it at pixel `k` of an open window and advance to the next. -/
theorem foldl_byte_color {row k : Nat} (hopen : Panel.windowOpen cfg cols rows row = true)
    (hk : k < rangeLength cols * rangeLength rows) (h : p.Painting cols rows)
    (hptr : p.ptr = some (windowPixel cols rows k)) (c : Word) :
    (be16 c).foldl (Panel.byte cfg 1) p =
      { p with
        mem := Memory.write (Memory.erase p.mem (windowAddr cols rows k)) (windowAddr cols rows k) c
        ptr := some (windowPixel cols rows (k + 1)) } := by
  have hrow := windowOpen_row hopen (Nat.div_lt_of_lt_mul hk)
  show (p.byte cfg 1 (c.extractLsb' 8 8)).byte cfg 1 (c.extractLsb' 0 8) = _
  rw [byte_pixel_pair (col := (windowPixel cols rows k).1) (row := (windowPixel cols rows k).2) h hptr hrow,
    ofBytes_be16, nextPtr_windowPixel (rangeLength_pos hopen)]
  rfl

/-- R208: the bytes of `l`, from pixel `k` of an open window on and not past its last one, store each color at its pixel
and leave every other address. -/
theorem foldl_byte_colors {row k : Nat} (hopen : Panel.windowOpen cfg cols rows row = true) {l : List Word}
    (hfits : k + l.length ≤ rangeLength cols * rangeLength rows) (h : p.Painting cols rows)
    (hptr : p.ptr = some (windowPixel cols rows k)) :
    ∃ mem, (colorBytes l).foldl (Panel.byte cfg 1) p
          = { p with mem := mem, ptr := some (windowPixel cols rows (k + l.length)) }
      ∧ (∀ i, i < l.length → Memory.read mem (windowAddr cols rows (k + i)) = l[i]?)
      ∧ ∀ a, (∀ i, i < l.length → a ≠ windowAddr cols rows (k + i)) → Memory.read mem a = Memory.read p.mem a := by
  induction l generalizing p k with
  | nil =>
    refine ⟨p.mem, ?_, fun i hi => absurd hi (Nat.not_lt_zero i), fun _ _ => rfl⟩
    rw [List.length_nil, Nat.add_zero, ← hptr]
    rfl
  | cons c l ih =>
    rw [List.length_cons] at hfits
    have hcolor := foldl_byte_color hopen (by omega) h hptr c
    obtain ⟨mem, hfold, hread, hother⟩ := ih (k := k + 1)
      (p := { p with
        mem := Memory.write (Memory.erase p.mem (windowAddr cols rows k)) (windowAddr cols rows k) c
        ptr := some (windowPixel cols rows (k + 1)) })
      (by omega) ⟨h.trust, h.writing, h.half, h.cols, h.rows⟩ rfl
    have hshift : ∀ i, k + 1 + i = k + (i + 1) := by omega
    refine ⟨mem, ?_, fun i hi => ?_, fun a ha => ?_⟩
    · have hcons : colorBytes (c :: l) = be16 c ++ colorBytes l := rfl
      rw [hcons, List.foldl_append, hcolor, hfold, List.length_cons, hshift]
    · cases i with
      | zero =>
        have hnot : ∀ i, i < l.length → windowAddr cols rows k ≠ windowAddr cols rows (k + 1 + i) :=
          fun i _ heq => absurd (windowAddr_inj (rangeLength_pos hopen) heq) (by omega)
        rw [Nat.add_zero, hother _ hnot]
        exact Memory.read_write_same _ _ _
      | succ i =>
        rw [← hshift]
        exact hread i (by simpa using hi)
    · have hlater : ∀ i, i < l.length → a ≠ windowAddr cols rows (k + 1 + i) :=
        fun i hi => hshift i ▸ ha (i + 1) (by simpa using hi)
      rw [hother a hlater]
      exact read_write_erase_other _ _ (ha 0 (by simp))

/-- The panel sees the chunks of a `SER` as one stream of bytes (R94, R179). -/
theorem after_serEvents (colors : List Word) :
    p.after cfg (serEvents colors (chunkCount colors.length)) = (colorBytes colors).foldl (Panel.byte cfg 1) p := by
  have hbytes : colorBytes colors = (List.range (chunkCount colors.length)).flatMap (serChunk colors) :=
    (flatMap_serChunk colors).symm
  rw [Panel.after, serEvents, List.foldl_map, hbytes, List.foldl_flatMap]
  rfl

/-! ### Painting a window -/

/-- The events of `WIN`, `RAMWR` and `SER` of `colors`, where `WIN` latches these ranges. -/
def paintEvents (cfg : Cfg) (cols rows : Word × Word) (colors : List Word) : List Event :=
  winEvents cfg cols.1 cols.2 rows.1 rows.2 ++ ([.xfer 0 [cfg.opcRamwr]] ++ serEvents colors (chunkCount colors.length))

/-- R206 to R208: they store the colors in the window, row by row, and leave every other address. -/
theorem after_paintEvents {row : Nat} (hv : cfg.valid = true) (h : p.drawable cfg = true)
    (hopen : Panel.windowOpen cfg cols rows row = true) {colors : List Word}
    (hfits : colors.length ≤ rangeLength cols * rangeLength rows) :
    ∃ mem, p.after cfg (paintEvents cfg cols rows colors)
          = { p.endStream with
              cols := some cols, rows := some rows, writing := some true
              ptr := some (windowPixel cols rows colors.length), mem := mem }
      ∧ (∀ i, i < colors.length → Memory.read mem (windowAddr cols rows i) = colors[i]?)
      ∧ ∀ a, (∀ i, i < colors.length → a ≠ windowAddr cols rows i) →
          Memory.read mem a = Memory.read p.endStream.mem a := by
  have hidle := idle_endStream h
  have hidle' : Panel.Idle { p.endStream with cols := some cols, rows := some rows } :=
    ⟨hidle.trust, hidle.due, hidle.pending, hidle.half, hidle.writing⟩
  have hdraw' : Panel.drawable cfg { p.endStream with cols := some cols, rows := some rows } = true :=
    drawable_iff.mpr ⟨hidle.trust, hidle.due, isActive_endStream h, hidle.pending⟩
  have hpainting : Panel.Painting
      { p.endStream with
        cols := some cols, rows := some rows, writing := some true, ptr := some (windowPixel cols rows 0) }
      cols rows := ⟨by rw [hidle.trust]; decide, rfl, hidle.half, rfl, rfl⟩
  obtain ⟨mem, hfold, hread, hother⟩ := foldl_byte_colors (k := 0) (l := colors) hopen (by omega) hpainting rfl
  simp only [Nat.zero_add] at hfold hread hother
  refine ⟨mem, ?_, hread, hother⟩
  rw [paintEvents, after_append, after_append, after_winEvents hv h, after_ramwr hv hdraw', endStream_of_idle hidle',
    after_serEvents, origin_of_window rfl rfl, ← windowPixel_zero cols rows, hfold]

/-! ### The programs that paint -/

theorem CompletedWith.trans {u : State} {k n : Nat} {es fs : List Event} (hst : CompletedWith k es s t)
    (htu : CompletedWith n fs t u) : CompletedWith (k + n) (es ++ fs) s u where
  ready := htu.ready
  cfg := htu.cfg.trans hst.cfg
  busErrs := htu.busErrs.trans hst.busErrs
  xcnt := by rw [htu.xcnt, hst.xcnt, Nat.add_assoc]
  panel := by rw [htu.panel, hst.panel, hst.cfg, after_append]

/-- What is left of a good bus after an operation. -/
theorem CompletedWith.busGoodFor {k n : Nat} {es : List Event} (h : CompletedWith k es s t)
    (hbus : s.busGoodFor (k + n)) : t.busGoodFor n := busGoodFor_of_xcnt h.busErrs h.xcnt hbus

theorem runProgram_cons {i : Instr} {is : List Instr} (h : exec i s = .next t) :
    runProgram (i :: is) s = runProgram is t := by rw [runProgram, h]

theorem exec_ser_completed {colors : List Word} (hfits : colors.length < 2 ^ 32) (hr : s.ready = true)
    (hbus : s.busGoodFor (chunkCount colors.length)) :
    ∃ t, exec (.ser colors) s = .next t
      ∧ CompletedWith (chunkCount colors.length) (serEvents colors (chunkCount colors.length)) s t := by
  obtain ⟨hlife, hf, -⟩ := ready_iff.mp hr
  exact ⟨_, exec_ser_good hfits hr hbus, ready_iff.mpr ⟨hlife, hf, rfl⟩, rfl, rfl, rfl, rfl⟩

/-- R220, R223: `WIN`, `RAMWR` and `SER`, one after the other on a good bus. -/
theorem runProgram_paint (x0 x1 y0 y1 : Word) {colors : List Word} (hfits : colors.length < 2 ^ 32)
    (hr : s.ready = true) (hbus : s.busGoodFor (5 + chunkCount colors.length)) :
    ∃ t, runProgram [.win x0 x1 y0 y1, .ramwr, .ser colors] s = .next t
      ∧ CompletedWith (5 + chunkCount colors.length)
          (paintEvents s.cfg (translateX s.cfg x0, translateX s.cfg x1) (translateY s.cfg y0, translateY s.cfg y1)
            colors) s t := by
  have hsplit : 5 + chunkCount colors.length = 4 + (1 + chunkCount colors.length) := by omega
  rw [hsplit] at hbus ⊢
  obtain ⟨t, hwin, ht⟩ := exec_win_completed x0 x1 y0 y1 hr fun j hj => hbus j (by omega)
  have htbus := ht.busGoodFor hbus
  obtain ⟨u, hramwr, hu⟩ := exec_ramwr_completed ht.ready (htbus 0 (by omega))
  obtain ⟨v, hser, hv⟩ := exec_ser_completed hfits hu.ready (hu.busGoodFor htbus)
  refine ⟨v, ?_, ht.trans (ht.cfg ▸ hu.trans hv)⟩
  rw [runProgram_cons hwin, runProgram_cons hramwr, runProgram_cons hser, runProgram]

/-! ### O57: `FLUSH` -/

/-- The column range that `FLUSH` sets (R220). -/
def Cfg.wholeCols (cfg : Cfg) : Word × Word := (translateX cfg 0, translateX cfg (cfg.w - 1))

/-- The row range that `FLUSH` sets (R220). -/
def Cfg.wholeRows (cfg : Cfg) : Word × Word := (translateY cfg 0, translateY cfg (cfg.h - 1))

/-- R155, R156: on a valid axis, the first and the last coordinate. -/
theorem toNat_wholeRange {bound off : Word} (hb : 1 ≤ bound.toNat) (hoff : bound.toNat - 1 + off.toNat ≤ 65535) :
    (controllerCoord 0 bound off).toNat = off.toNat
      ∧ (controllerCoord (bound - 1) bound off).toNat = bound.toNat - 1 + off.toNat := by
  have hpred : (bound - 1).toNat = bound.toNat - 1 := BitVec.toNat_sub_of_le hb
  have hzero : (0 : Word).toNat = 0 := rfl
  rw [toNat_controllerCoord _ hb hoff, toNat_controllerCoord _ hb hoff, hpred, hzero, Nat.min_self, Nat.zero_min,
    Nat.zero_add]
  exact ⟨rfl, rfl⟩

theorem toNat_wholeCols (hv : cfg.valid = true) :
    (Cfg.wholeCols cfg).1.toNat = cfg.xoff.toNat
      ∧ (Cfg.wholeCols cfg).2.toNat + 1 = cfg.w.toNat + cfg.xoff.toNat := by
  obtain ⟨hw, hx, -⟩ := Cfg.valid_facts hv
  obtain ⟨hfirst, hlast⟩ := toNat_wholeRange hw hx
  exact ⟨hfirst, by show (controllerCoord _ _ _).toNat + 1 = _; omega⟩

theorem toNat_wholeRows (hv : cfg.valid = true) :
    (Cfg.wholeRows cfg).1.toNat = cfg.yoff.toNat
      ∧ (Cfg.wholeRows cfg).2.toNat + 1 = cfg.h.toNat + cfg.yoff.toNat := by
  obtain ⟨-, -, hh, hy, -⟩ := Cfg.valid_facts hv
  obtain ⟨hfirst, hlast⟩ := toNat_wholeRange hh hy
  exact ⟨hfirst, by show (controllerCoord _ _ _).toNat + 1 = _; omega⟩

/-- The window of `FLUSH` is the physical panel, and holds `W * H` pixels. -/
theorem wholePanel_facts (hv : cfg.valid = true) :
    Panel.windowOpen cfg (Cfg.wholeCols cfg) (Cfg.wholeRows cfg) cfg.yoff.toNat = true
      ∧ rangeLength (Cfg.wholeCols cfg) = cfg.w.toNat ∧ rangeLength (Cfg.wholeRows cfg) = cfg.h.toNat := by
  obtain ⟨hw, -, hh, -, -⟩ := Cfg.valid_facts hv
  obtain ⟨hx0, hx1⟩ := toNat_wholeCols hv
  obtain ⟨hy0, hy1⟩ := toNat_wholeRows hv
  simp only [Panel.windowOpen, Bool.and_eq_true, decide_eq_true_eq, rangeLength]
  omega

/-- R221: pixel `y*W + x` of the stream goes to logical column `x` and row `y`. -/
theorem windowAddr_wholePanel (hv : cfg.valid = true) {x : Nat} (hx : x < cfg.w.toNat) (y : Nat) :
    windowAddr (Cfg.wholeCols cfg) (Cfg.wholeRows cfg) (y * cfg.w.toNat + x)
      = pixelAddr (x + cfg.xoff.toNat) (y + cfg.yoff.toNat) := by
  obtain ⟨-, hlen, -⟩ := wholePanel_facts hv
  obtain ⟨hx0, -⟩ := toNat_wholeCols hv
  obtain ⟨hy0, -⟩ := toNat_wholeRows hv
  have hpos : 0 < cfg.w.toNat := Nat.zero_lt_of_lt hx
  obtain ⟨hdiv, hmod⟩ := (Nat.div_mod_unique (a := y * cfg.w.toNat + x) (c := x) (d := y) hpos).mpr
    ⟨by rw [Nat.mul_comm, Nat.add_comm], hx⟩
  rw [windowAddr, windowPixel, hlen, hx0, hy0, hdiv, hmod, Nat.add_comm x, Nat.add_comm y]

/-- R209: of a panel that is described a color is what the frame memory holds. -/
theorem color_of_described (h : p.described = true) (col row : Nat) :
    p.color col row = Memory.read p.mem (pixelAddr col row) := if_pos h

/-- A place in row `y` and column `x` of `w` columns and `h` rows is one of the `w * h`. -/
theorem index_lt_area {w h x y : Nat} (hx : x < w) (hy : y < h) : y * w + x < w * h := by
  have hrows : (y + 1) * w ≤ h * w := Nat.mul_le_mul_right w hy
  rw [Nat.succ_mul, Nat.mul_comm h w] at hrows
  omega

/-- Settles O57: `runProgram_paint` with `after_paintEvents`, for the window that is the whole panel. -/
theorem flushPaintsPanel : Obligations.FlushPaintsPanel := by
  intro fb s hr hv hlen hbus hdraw
  obtain ⟨hopen, hcols, hrows⟩ := wholePanel_facts hv
  have hsize : s.cfg.w.toNat * s.cfg.h.toNat < 2 ^ 16 * 2 ^ 16 := Nat.mul_lt_mul'' s.cfg.w.isLt s.cfg.h.isLt
  have harea : fb.length ≤ rangeLength (Cfg.wholeCols s.cfg) * rangeLength (Cfg.wholeRows s.cfg) := by
    rw [hcols, hrows, hlen]
  obtain ⟨t, hrun, hdone⟩ := runProgram_paint 0 (s.cfg.w - 1) 0 (s.cfg.h - 1) (colors := fb) (by omega) hr hbus
  obtain ⟨mem, hpanel, hread, -⟩ := after_paintEvents hv hdraw hopen harea
  have hidle := idle_endStream hdraw
  have htpanel := hdone.panel.trans hpanel
  have hdescribed : t.panel.described = true := by
    rw [htpanel]
    simp [Panel.described, hidle.trust, hidle.due]
  refine ⟨t, hrun, (ready_iff.mp hdone.ready).2.1, fun x y hx hy => ?_⟩
  rw [color_of_described hdescribed, ← windowAddr_wholePanel hv hx y, htpanel]
  exact hread _ (hlen ▸ index_lt_area hx hy)

end Sys2Proof.Machine
end

section
/-! PROOFS. `BLIT` (O58): the window of one column, the columns it has shown so far, and the program that paints them. -/

namespace Sys2Proof.Machine

variable {cfg : Cfg} {p : Panel} {s t : State} {img : List Word}

/-! ### The window of one column -/

/-- The column range that `BLIT` sets for logical column `x` (R223). -/
def Cfg.oneCol (cfg : Cfg) (x : Nat) : Word × Word :=
  (translateX cfg (BitVec.ofNat 16 x), translateX cfg (BitVec.ofNat 16 x))

/-- The colors of logical column `x` of a column-major image (R223). -/
def columnColors (cfg : Cfg) (img : List Word) (x : Nat) : List Word := (img.drop (x * cfg.h.toNat)).take cfg.h.toNat

/-- R155, R156: on a valid axis neither the clamp nor the offset moves a logical column. -/
theorem toNat_oneCol (hv : cfg.valid = true) {x : Nat} (hx : x < cfg.w.toNat) :
    (Cfg.oneCol cfg x).1.toNat = x + cfg.xoff.toNat ∧ (Cfg.oneCol cfg x).2.toNat = x + cfg.xoff.toNat := by
  obtain ⟨hw, hoff, -⟩ := Cfg.valid_facts hv
  have hword : (BitVec.ofNat 16 x).toNat = x := Nat.mod_eq_of_lt (Nat.lt_trans hx cfg.w.isLt)
  have hcol : (translateX cfg (BitVec.ofNat 16 x)).toNat = x + cfg.xoff.toNat := by
    rw [translateX, toNat_controllerCoord _ hw hoff, hword, Nat.min_eq_left (Nat.le_sub_one_of_lt hx)]
  exact ⟨hcol, hcol⟩

/-- The window of a column lies on the physical panel, and is one pixel wide. -/
theorem oneCol_facts (hv : cfg.valid = true) {x : Nat} (hx : x < cfg.w.toNat) :
    Panel.windowOpen cfg (Cfg.oneCol cfg x) (Cfg.wholeRows cfg) cfg.yoff.toNat = true
      ∧ rangeLength (Cfg.oneCol cfg x) = 1 := by
  obtain ⟨-, -, hh, -, -⟩ := Cfg.valid_facts hv
  obtain ⟨hx0, hx1⟩ := toNat_oneCol hv hx
  obtain ⟨hy0, hy1⟩ := toNat_wholeRows hv
  simp only [Panel.windowOpen, Bool.and_eq_true, decide_eq_true_eq, rangeLength]
  omega

/-- R225: pixel `y` of the stream goes to logical column `x` and row `y`. -/
theorem windowAddr_oneCol (hv : cfg.valid = true) {x : Nat} (hx : x < cfg.w.toNat) (y : Nat) :
    windowAddr (Cfg.oneCol cfg x) (Cfg.wholeRows cfg) y = pixelAddr (x + cfg.xoff.toNat) (y + cfg.yoff.toNat) := by
  obtain ⟨-, hlen⟩ := oneCol_facts hv hx
  obtain ⟨hx0, -⟩ := toNat_oneCol hv hx
  obtain ⟨hy0, -⟩ := toNat_wholeRows hv
  rw [windowAddr, windowPixel, hlen, hx0, hy0, Nat.mod_one, Nat.div_one, Nat.add_zero, Nat.add_comm _ y]

/-- Logical columns of the panel do not share an address. -/
theorem pixelAddr_column_ne (hv : cfg.valid = true) {x x' : Nat} (hx : x < cfg.w.toNat) (hx' : x' < cfg.w.toNat)
    (hne : x ≠ x') (row row' : Nat) : pixelAddr (x + cfg.xoff.toNat) row ≠ pixelAddr (x' + cfg.xoff.toNat) row' := by
  obtain ⟨-, hoff, -⟩ := Cfg.valid_facts hv
  intro heq
  obtain ⟨hcol, -⟩ := pixelAddr_inj (by omega) (by omega) heq
  exact hne (Nat.add_right_cancel hcol)

theorem length_columnColors (hlen : img.length = cfg.w.toNat * cfg.h.toNat) {x : Nat} (hx : x < cfg.w.toNat) :
    (columnColors cfg img x).length = cfg.h.toNat := by
  have hcols : (x + 1) * cfg.h.toNat ≤ cfg.w.toNat * cfg.h.toNat := Nat.mul_le_mul_right _ hx
  rw [Nat.succ_mul] at hcols
  rw [columnColors, List.length_take, List.length_drop]
  omega

theorem getElem?_columnColors (cfg : Cfg) (img : List Word) (x : Nat) {y : Nat} (hy : y < cfg.h.toNat) :
    (columnColors cfg img x)[y]? = img[x * cfg.h.toNat + y]? := by
  rw [columnColors, List.getElem?_take_of_lt hy, List.getElem?_drop]

/-! ### The columns shown so far -/

/-- The first `m` columns of the image are on a panel that can still be drawn on, and no pixel of theirs is one that the
next command byte would discard (R207). -/
structure Panel.ShowsColumns (cfg : Cfg) (img : List Word) (m : Nat) (p : Panel) : Prop where
  drawable : p.drawable cfg = true
  half : 0 < m → p.half = none
  pixel : ∀ x y, x < m → y < cfg.h.toNat →
    Memory.read p.mem (pixelAddr (x + cfg.xoff.toNat) (y + cfg.yoff.toNat)) = img[x * cfg.h.toNat + y]?

/-- The events of one column of `BLIT` (R223). -/
def columnEvents (cfg : Cfg) (img : List Word) (x : Nat) : List Event :=
  paintEvents cfg (Cfg.oneCol cfg x) (Cfg.wholeRows cfg) (columnColors cfg img x)

/-- R225: they show the next column and keep those shown before. -/
theorem after_columnEvents (hv : cfg.valid = true) (hlen : img.length = cfg.w.toNat * cfg.h.toNat) {m : Nat}
    (hm : m < cfg.w.toNat) (h : p.ShowsColumns cfg img m) :
    (p.after cfg (columnEvents cfg img m)).ShowsColumns cfg img (m + 1) := by
  obtain ⟨hopen, hcols⟩ := oneCol_facts hv hm
  obtain ⟨-, -, hrows⟩ := wholePanel_facts hv
  have hcolors := length_columnColors hlen hm
  obtain ⟨mem, hpanel, hread, hother⟩ := after_paintEvents (colors := columnColors cfg img m) hv h.drawable hopen
    (by rw [hcols, hrows, hcolors, Nat.one_mul])
  have hidle := idle_endStream h.drawable
  rw [columnEvents, hpanel]
  refine ⟨drawable_iff.mpr ⟨hidle.trust, hidle.due, isActive_endStream h.drawable, hidle.pending⟩,
    fun _ => hidle.half, fun x y hx hy => ?_⟩
  obtain rfl | hbefore := Nat.eq_or_lt_of_le (Nat.le_of_lt_succ hx)
  · rw [← windowAddr_oneCol hv hm, ← getElem?_columnColors cfg img x hy]
    exact hread y (hcolors.symm ▸ hy)
  · obtain ⟨-, -, -, hpending⟩ := drawable_iff.mp h.drawable
    have hkept : p.endStream.mem = p.mem := endStream_mem hpending (h.half (Nat.zero_lt_of_lt hbefore))
    rw [← h.pixel x y hbefore hy, ← hkept]
    refine hother _ fun i _ => ?_
    rw [windowAddr_oneCol hv hm]
    exact pixelAddr_column_ne hv (Nat.lt_trans hbefore hm) hm (Nat.ne_of_lt hbefore) _ _

/-! ### O58: `BLIT` -/

theorem runProgram_append {is js : List Instr} (h : runProgram is s = .next t) :
    runProgram (is ++ js) s = runProgram js t := by
  induction is generalizing s with
  | nil =>
    cases h
    rfl
  | cons i is ih =>
    rw [runProgram] at h
    rw [List.cons_append, runProgram]
    split at h
    · exact ih h
    · cases h
    · cases h

/-- R223: one column of `BLIT` on a good bus. -/
theorem runProgram_blitColumn (hlen : img.length = s.cfg.w.toNat * s.cfg.h.toNat) {x : Nat} (hx : x < s.cfg.w.toNat)
    (hr : s.ready = true) (hbus : s.busGoodFor (5 + chunkCount s.cfg.h.toNat)) :
    ∃ t, runProgram (blitColumn s.cfg img x) s = .next t
      ∧ CompletedWith (5 + chunkCount s.cfg.h.toNat) (columnEvents s.cfg img x) s t := by
  have hcolors := length_columnColors hlen hx
  have hfits : (columnColors s.cfg img x).length < 2 ^ 32 := by
    have hh := s.cfg.h.isLt
    omega
  rw [← hcolors] at hbus ⊢
  exact runProgram_paint (BitVec.ofNat 16 x) (BitVec.ofNat 16 x) 0 (s.cfg.h - 1) hfits hr hbus

/-- R223, R225: the first `m` columns of `BLIT` on a good bus run to their end and show themselves. -/
theorem runProgram_blitColumns (hr : s.ready = true) (hv : s.cfg.valid = true)
    (hlen : img.length = s.cfg.w.toNat * s.cfg.h.toNat) (hdraw : s.panel.drawable s.cfg = true) {m : Nat}
    (hm : m ≤ s.cfg.w.toNat) (hbus : s.busGoodFor (m * (5 + chunkCount s.cfg.h.toNat))) :
    ∃ t es, runProgram ((List.range m).flatMap (blitColumn s.cfg img)) s = .next t
      ∧ CompletedWith (m * (5 + chunkCount s.cfg.h.toNat)) es s t ∧ t.panel.ShowsColumns s.cfg img m := by
  induction m with
  | zero =>
    refine ⟨s, [], rfl, ⟨hr, rfl, rfl, by rw [Nat.zero_mul, Nat.add_zero], rfl⟩, hdraw, ?_, ?_⟩
    · exact fun h => absurd h (Nat.lt_irrefl 0)
    · exact fun _ _ hx => absurd hx (Nat.not_lt_zero _)
  | succ m ih =>
    rw [Nat.succ_mul] at hbus ⊢
    obtain ⟨t, es, hrun, hdone, hshows⟩ := ih (Nat.le_of_succ_le hm) fun j hj => hbus j (Nat.lt_add_right _ hj)
    obtain ⟨u, hcolumn, hnext⟩ := runProgram_blitColumn (s := t) (img := img) (by rw [hdone.cfg, hlen])
      (by rw [hdone.cfg]; exact hm) hdone.ready (by rw [hdone.cfg]; exact hdone.busGoodFor hbus)
    rw [hdone.cfg] at hcolumn hnext
    refine ⟨u, es ++ columnEvents s.cfg img m, ?_, hdone.trans hnext, ?_⟩
    · rw [List.range_succ, List.flatMap_append, List.flatMap_singleton, runProgram_append hrun, hcolumn]
    · rw [hnext.panel, hdone.cfg]
      exact after_columnEvents hv hlen hm hshows

/-- Settles O58: `runProgram_blitColumns` for all `W` columns. -/
theorem blitPaintsPanel : Obligations.BlitPaintsPanel := by
  intro img s hr hv hlen hbus hdraw
  obtain ⟨t, _, hrun, hdone, hshows⟩ := runProgram_blitColumns hr hv hlen hdraw (Nat.le_refl _) hbus
  obtain ⟨-, hfault, -⟩ := ready_iff.mp hdone.ready
  obtain ⟨htrust, hdue, -, -⟩ := drawable_iff.mp hshows.drawable
  have hdescribed : t.panel.described = true := by simp [Panel.described, htrust, hdue]
  refine ⟨t, hrun, hfault, fun x y hx hy => ?_⟩
  rw [color_of_described hdescribed]
  exact hshows.pixel x y hx hy

end Sys2Proof.Machine
end

section
/-! PROOFS. Faults: the fault entry is precise (O24), a good bus raises none below the ceiling (O25), and a failed
transfer ends every claim about the panel (O60). All three follow from where an instruction can fault. -/

namespace Sys2Proof.Machine

variable {s t : State}

/-! ### Where an instruction faults -/

/-- The micro-operation `m` at `SEQPC` of the operation in progress in `u` faults, and leaves `t` (R231). -/
structure FaultsAt (u : State) (m : MicroOp) (t : State) : Prop where
  running : u.running
  next : u.sequence[u.seqpc]? = some m
  run : m.run u = .next t

/-- What every micro-operation that goes well keeps, from the list's first one on, holds where the list faults. -/
theorem runOps_faultsAt {P : State → Prop} {ms : List MicroOp}
    (hrun : ∀ m u v, P u → u.running → u.sequence[u.seqpc]? = some m → m.run u = .next v → v.fault = false → P v)
    (hs : P s) (hr : s.running) (hlist : s.sequence.drop s.seqpc = ms) (h : runOps ms s = .next t)
    (hft : t.fault = true) : ∃ u m, P u ∧ FaultsAt u m t := by
  have hf := (halted_eq_false_iff.mp hr.1).1
  induction ms generalizing s with
  | nil =>
    cases h
    exact absurd (hf.symm.trans hft) (by decide)
  | cons m ms ih =>
    have hm : s.sequence[s.seqpc]? = some m := by rw [← List.head?_drop, hlist, List.head?_cons]
    obtain ⟨u, hu, ⟨-, rfl⟩ | ⟨huf, hms⟩⟩ := runOps_cons_cases h
    · exact ⟨s, m, hs, hr, hm, hu⟩
    · obtain ⟨hur, hseq, hpc⟩ := run_running hr hm hu huf
      refine ih (hrun m s u hs hr hm hu huf) hur ?_ hms huf
      rw [hseq, hpc, ← List.tail_drop, hlist, List.tail_cons]

/-- An instruction raises the fault where one micro-operation of its list does, and nowhere else. -/
theorem exec_faultsAt {P : State → Prop} {i : Instr}
    (hacc : (∀ r g b, i ≠ .pack r g b) → P (accepted i s))
    (hrun : ∀ m u v, P u → u.running → u.sequence[u.seqpc]? = some m → m.run u = .next v → v.fault = false → P v)
    (hf : s.fault = false) (h : exec i s = .next t) (hft : t.fault = true) : ∃ u m, P u ∧ FaultsAt u m t := by
  rcases exec_cases h with ⟨-, rfl⟩ | ⟨-, r, g, b, -, rfl⟩ | ⟨hr, hp, hd⟩
  · exact absurd (hf.symm.trans hft) (by decide)
  · exact absurd (hf.symm.trans hft) (by decide)
  · obtain ⟨u, hu, ⟨-, rfl⟩ | ⟨huf, rfl⟩⟩ := drive_cases hd
    · refine runOps_faultsAt hrun (hacc hp) (accepted_running hp hr) ?_ hu hft
      rw [(accepted_facts hp s).2.1, List.drop_zero]
    · exact absurd (huf.symm.trans hft) (by decide)

/-- All a micro-operation that faults can do: a transfer that is too long or that the bus fails, recorded at once (R122,
R124, R231, R233). -/
theorem FaultsAt.transfer {u : State} {m : MicroOp} (h : FaultsAt u m t) (hft : t.fault = true) :
    ∃ dc bytes, m.transfer u = some (dc, bytes)
      ∧ (Config.maxXferBytes < bytes.length ∨ u.busErr u.xcnt = true)
      ∧ t = ((m.latched u).started dc).failTransfer u.xcnt dc bytes := by
  have hf := (halted_eq_false_iff.mp h.running.1).1
  rcases run_cases hf h.run with ⟨-, rfl⟩ | ⟨dc, bytes, htr, -, ⟨-, -, rfl⟩ | ⟨hbad, rfl⟩⟩
  · exact absurd hft (by simp [hf])
  · exact absurd hft (by simp [hf])
  · exact ⟨dc, bytes, htr, hbad, rfl⟩

/-! ### O60: the panel after a failed transfer -/

/-- Settles O60: an instruction faults by a failed transfer alone, and that event refuses the panel (U9). -/
theorem failedTransferEndsClaims : Obligations.FailedTransferEndsClaims := by
  intro i s t hf h hft
  obtain ⟨u, m, -, hat⟩ := exec_faultsAt (P := fun _ => True) (fun _ => trivial)
    (fun _ _ _ _ _ _ _ _ => trivial) hf h hft
  obtain ⟨dc, bytes, -, -, rfl⟩ := hat.transfer hft
  rw [failTransfer_panel]
  rfl

/-! ### O24: the record of a fault -/

/-- `t` has the responses of `s`, and its trace with events among which no transfer has failed. -/
structure NoFailureSince (s t : State) : Prop where
  responses : t.responses = s.responses
  trace : ∃ es, t.trace = s.trace ++ es ∧ ∀ dc bytes, Event.xferFail dc bytes ∉ es

/-- A micro-operation that does not fault emits no failed transfer and answers nothing (R95, R122). -/
theorem run_noFailureSince {m : MicroOp} (hf : s.fault = false) (h : m.run s = .next t) (hft : t.fault = false) :
    NoFailureSince s t := by
  have hresp : t.responses = s.responses := by
    obtain ⟨-, -, -, hr⟩ | ⟨hfault, -⟩ := run_seqpc hf h
    · exact hr
    · exact absurd (hft.symm.trans hfault) (by decide)
  refine ⟨hresp, ?_⟩
  rcases run_cases hf h with ⟨-, rfl⟩ | ⟨dc, bytes, -, -, ⟨-, -, rfl⟩ | ⟨-, rfl⟩⟩
  · rcases quiet_trace m s with ht | ⟨e, ht, he⟩
    · exact ⟨[], by simpa using ht, fun _ _ => List.not_mem_nil⟩
    · refine ⟨[e], ht, fun dc bytes hmem => ?_⟩
      rw [← List.mem_singleton.mp hmem] at he
      exact absurd he (by simp [Event.isTransfer])
  · exact ⟨[.xfer dc bytes], by simp, by simp⟩
  · exact absurd hft (by simp)

theorem NoFailureSince.trans {u : State} (hst : NoFailureSince s t) (htu : NoFailureSince t u) :
    NoFailureSince s u := by
  obtain ⟨hresp, es, hes, hok⟩ := hst
  obtain ⟨hresp', fs, hfs, hok'⟩ := htu
  refine ⟨hresp'.trans hresp, es ++ fs, by rw [hfs, hes, List.append_assoc], fun dc bytes hmem => ?_⟩
  exact (List.mem_append.mp hmem).elim (hok dc bytes) (hok' dc bytes)

/-- The micro-operations that transfer are `XC`, `XD` and `XS` (R96). -/
theorem transfer_some_cases {m : MicroOp} {dc : Bit} {bytes : List Byte} (h : m.transfer s = some (dc, bytes)) :
    (∃ b, m = .xc b) ∨ (∃ l, m = .xd l) ∨ m = .xs := by
  cases m with
  | xc b => exact .inl ⟨b, rfl⟩
  | xd l => exact .inr (.inl ⟨l, rfl⟩)
  | xs => exact .inr (.inr rfl)
  | _ => exact nomatch h

/-- Settles O24: up to the micro-operation that faults nothing has failed (`run_noFailureSince`), and what that one
records is its own transfer, at its own step of the same list. -/
theorem faultIsRecordedPrecisely : Obligations.FaultIsRecordedPrecisely := by
  intro i s t hf h hft
  obtain ⟨u, m, ⟨hresp, es, hes, hok⟩, hat⟩ := exec_faultsAt (P := NoFailureSince s)
    (fun hp => ⟨accepted_responses hp s, [], by simp, fun _ _ => List.not_mem_nil⟩)
    (fun m u v hu hr _ hm hvf => hu.trans (run_noFailureSince (halted_eq_false_iff.mp hr.1).1 hm hvf)) hf h hft
  have huf := (halted_eq_false_iff.mp hat.running.1).1
  have hseq := sequence_run huf (List.mem_of_getElem? hat.next) hat.run
  obtain ⟨hok', -⟩ | ⟨-, hpc, hbusy, hanswer⟩ := run_seqpc huf hat.run
  · exact absurd (hok'.symm.trans hft) (by decide)
  rw [hseq, hpc, hat.next]
  obtain ⟨dc, bytes, htr, -, rfl⟩ := hat.transfer hft
  refine ⟨hbusy, rfl, by simp, rfl, rfl, hpc, ⟨es, bytes, by simp [hes], hok⟩, by rw [hanswer, hresp], ?_⟩
  simpa using transfer_some_cases htr

/-! ### O25: a good bus -/

theorem run_xcnt_le {m : MicroOp} (hf : s.fault = false) (h : m.run s = .next t) : s.xcnt ≤ t.xcnt := by
  rcases run_cases hf h with ⟨-, rfl⟩ | ⟨dc, bytes, -, -, ⟨-, -, rfl⟩ | ⟨-, rfl⟩⟩ <;> simp

/-- A micro-operation that, if it is `XD`, stays below the ceiling (R124). -/
def MicroOp.xdFits : MicroOp → Bool
  | .xd bytes => decide (bytes.length ≤ Config.maxXferBytes)
  | .xc _ => true
  | .stage _ => true
  | .xs => true
  | .resl => true
  | .resh => true
  | .wait _ => true
  | .blset _ => true
  | .pst _ => true

/-- Only the stream of `DAT` can make an `XD` too long: every other list holds `XD` of a few bytes, or none (R146, R154,
R175). -/
theorem xdFits_of_mem_sequence (hdat : s.opr = 2 → s.srcb.length ≤ Config.maxXferBytes) {m : MicroOp}
    (hm : m ∈ s.sequence) : m.xdFits = true := by
  have hall : s.sequence.all MicroOp.xdFits = true := by
    unfold State.sequence
    split
    case h_2 h =>
      unfold seqDat
      split
      · rfl
      · simp [MicroOp.xdFits, hdat (BitVec.eq_of_toNat_eq h)]
    case h_7 =>
      refine List.all_eq_true.mpr fun m hm => ?_
      rcases mem_seqSer hm with ⟨k, rfl⟩ | rfl <;> rfl
    all_goals rfl
  exact List.all_eq_true.mp hall m hm

/-- `XS` comes next only right after a `STAGE`, which leaves at most the 1024 bytes of a chunk to send (R175, R178). -/
theorem run_slen_before_xs {m : MicroOp} (hr : s.running) (hm : s.sequence[s.seqpc]? = some m) (h : m.run s = .next t)
    (hft : t.fault = false) (hxs : t.sequence[t.seqpc]? = some .xs) : t.slen ≤ Config.maxXferBytes := by
  obtain ⟨-, hseq, hpc⟩ := run_running hr hm h hft
  rw [hseq, hpc] at hxs
  by_cases ho : s.opr = 8
  · obtain ⟨k, -, -, rfl, -⟩ | ⟨-, hnot⟩ := sequence_ser_cases ho hm
    · rw [run_stage (halted_eq_false_iff.mp hr.1).1] at h
      cases h
      have hsize := chunkSize_le s.cnt.toNat k
      show 2 * chunkSize s.cnt.toNat k ≤ 1024
      omega
    · exact absurd hxs hnot
  · exact absurd (not_usesScratch_of_mem ho (List.mem_of_getElem? hxs)) (by decide)

/-- An operation begun in `s` is in a state `u` in which the oracle has not changed, the transfers of `s` are behind it,
and neither the stream of `DAT` nor the chunk that `XS` sends next is above the ceiling. -/
structure BelowCeiling (s u : State) : Prop where
  busErrs : u.busErrs = s.busErrs
  xcnt : s.xcnt ≤ u.xcnt
  dat : u.opr = 2 → u.srcb.length ≤ Config.maxXferBytes
  chunk : u.sequence[u.seqpc]? = some .xs → u.slen ≤ Config.maxXferBytes

theorem accepted_belowCeiling {i : Instr} (hp : ∀ r g b, i ≠ .pack r g b)
    (hdat : ∀ bytes, i = .dat bytes → bytes.length ≤ 1024) (s : State) : BelowCeiling s (accepted i s) := by
  refine ⟨accepted_busErrs i s, (accepted_xcnt i s).ge, fun ho => ?_, fun hxs => ?_⟩
  · cases i with
    | dat bytes => exact hdat bytes rfl
    | pack r g b => exact absurd rfl (hp r g b)
    | _ => exact absurd ho (by simp [accepted])
  · rw [(accepted_facts hp s).2.1] at hxs
    exact absurd hxs (sequence_even_ne_xs _ 0)

theorem run_keeps_belowCeiling {u v : State} {m : MicroOp} (hu : BelowCeiling s u) (hr : u.running)
    (hm : u.sequence[u.seqpc]? = some m) (h : m.run u = .next v) (hvf : v.fault = false) : BelowCeiling s v := by
  have huf := (halted_eq_false_iff.mp hr.1).1
  obtain ⟨-, hopr, -, hsrcb, -, -, -, -, -, -, -, -, -, -, -, hbus, -⟩ := run_frame huf h
  refine ⟨hbus.trans hu.busErrs, hu.xcnt.trans (run_xcnt_le huf h), ?_, run_slen_before_xs hr hm h hvf⟩
  rw [hopr, hsrcb]
  exact hu.dat

/-- The next transfer of such an operation is not above the ceiling (R122, R124). -/
theorem BelowCeiling.transfer_le {u : State} {m : MicroOp} {dc : Bit} {bytes : List Byte} (hu : BelowCeiling s u)
    (hm : u.sequence[u.seqpc]? = some m) (h : m.transfer u = some (dc, bytes)) :
    bytes.length ≤ Config.maxXferBytes := by
  obtain ⟨b, rfl⟩ | ⟨l, rfl⟩ | rfl := transfer_some_cases h <;> cases h
  · exact Nat.one_le_ofNat
  · simpa [MicroOp.xdFits] using xdFits_of_mem_sequence hu.dat (List.mem_of_getElem? hm)
  · rw [Scratch.length_readFrom]
    exact hu.chunk hm

/-- Settles O25: a fault needs a transfer above the ceiling, which `BelowCeiling.transfer_le` excludes, or a bus error
at an index the bus is good for. A TPC that is faulted already takes no instruction. -/
theorem goodBusNeverFaults : Obligations.GoodBusNeverFaults := by
  intro i s t hbus hdat h
  cases hf : s.fault
  · by_contra hft
    rw [Bool.not_eq_false] at hft
    obtain ⟨u, m, hu, hat⟩ := exec_faultsAt (P := BelowCeiling s) (fun hp => accepted_belowCeiling hp hdat s)
      (fun _ _ _ => run_keeps_belowCeiling) hf h hft
    obtain ⟨dc, bytes, htr, hlong | herr, -⟩ := hat.transfer hft
    · exact absurd hlong (hu.transfer_le hat.next htr).not_gt
    · have hgood := hbus u.xcnt hu.xcnt
      rw [State.busErr, ← hu.busErrs] at hgood
      exact absurd (hgood.symm.trans herr) (by decide)
  · have hnot : s.ready = false := not_ready_of_halted (by simp [State.halted, hf])
    rw [exec_of_not_ready i hnot] at h
    cases h
    exact hf

end Sys2Proof.Machine
end

section
/-! PROOFS. Reset and the port: construction meets the invariants (O50), and a ready TPC waits or is torn down (O6). -/

namespace Sys2Proof.Machine

variable {s t : State}

/-! ### O50: construction -/

/-- The drawn scratch bytes are stored in canonical form, below index 1024 (R34, R44, R61). -/
theorem constructed_scratchInv (cfg : Cfg) (d : Draws) (errs : List Nat) :
    (State.constructed cfg d errs).ScratchInv := by
  refine ⟨Scratch.wf_writeFrom Scratch.wf_nil _ _, fun c hc => ?_, Nat.zero_le _⟩
  have hlen : (d.scr.take Config.scrBytes).length ≤ Config.scrBytes := List.length_take_le _ _
  obtain hnil | ⟨-, hlt⟩ := Scratch.mem_writeFrom hc
  · exact absurd hnil List.not_mem_nil
  · omega

/-- Settles O50: both memories are stored in canonical form; the trace is empty, TPC is neither busy nor faulted, and
`SLEN` is 0. -/
theorem constructionMeetsInvariants : Obligations.ConstructionMeetsInvariants := by
  rintro cfg d errs _ rfl
  have htrace : (State.constructed cfg d errs).TraceInv := ⟨rfl, fun _ _ => nofun⟩
  have hfault : (State.constructed cfg d errs).FaultInv := ⟨fun _ _ _ => nofun, nofun⟩
  exact ⟨constructed_scratchInv cfg d errs, wf_drawn d.panel, fun _ => rfl, fun _ => rfl, htrace, hfault,
    (stagingInv_iff_of_idle rfl).mpr fun _ => rfl, rfl⟩

/-! ### O6: waiting and teardown -/

theorem serve_waits {start : Instr → State → Host.Outcome State Fault Refusal} (h : s.ready = true)
    (hf : fetch s = .waits) : serve start s = .next s := by
  simp [serve, not_halted_of_ready h, (ready_iff.mp h).2.2, hf]

theorem serve_strobe {start : Instr → State → Host.Outcome State Fault Refusal} (h : s.ready = true)
    (hf : fetch s = .strobe) : serve start s = .next s.consume.tearDown := by
  simp [serve, not_halted_of_ready h, (ready_iff.mp h).2.2, hf]

/-- No micro-operation tears TPC down or takes an item from its port. -/
theorem run_life_port {m : MicroOp} (hf : s.fault = false) (h : m.run s = .next t) :
    t.life = s.life ∧ t.port = s.port := by
  obtain ⟨-, -, -, -, -, -, -, -, -, -, -, -, -, hlife, hport, -, -⟩ := run_frame hf h
  exact ⟨hlife, hport⟩

/-- Settles O6: a ready TPC serves what it finds at its port, and a busy one runs its operation. -/
theorem idleWaitsAndTeardownEnds : Obligations.IdleWaitsAndTeardownEnds := by
  refine fun s => ⟨fun hr hport => ?_, fun rest hr hport => ?_, fun t hb h => ?_⟩
  · exact serve_waits hr (by rw [fetch, hport])
  · rw [step, serve_strobe hr (by rw [fetch, hport]), consume_of_port hport]
    rfl
  · have hnot : s.ready ≠ true := by simp [not_ready_of_busy hb]
    rcases step_cases h with rfl | ⟨-, -, -, rfl⟩ | ⟨hh, -, m, -, hm⟩ | ⟨hr, -⟩ | ⟨hr, -⟩ | ⟨hr, -⟩
    · exact ⟨rfl, rfl⟩
    · exact ⟨rfl, rfl⟩
    · exact run_life_port (halted_eq_false_iff.mp hh).1 hm
    · exact absurd hr hnot
    · exact absurd hr hnot
    · exact absurd hr hnot

end Sys2Proof.Machine
end

section
/-! PROOFS. A hazard at the panel: a command with a mandatory delay, sent by hand, ends every claim (O59). -/

namespace Sys2Proof.Machine

variable {s t : State} {cfg : Cfg} {p : Panel}

/-! ### A panel that is owed a delay -/

/-- The panel is refused, or a mandatory delay is owed to it. Only a wait can end this, and every list that waits lowers
the reset line first, which refuses a panel that is owed a delay (U1, R270). -/
def Panel.Owed (p : Panel) : Prop := p.trust = .refused ∨ 0 < p.due

theorem Panel.Owed.not_described (h : p.Owed) : p.described = false := by
  obtain ht | hd := h
  · simp [Panel.described, ht]
  · simp [Panel.described, hd.ne']

theorem pixelByte_due (cfg : Cfg) (b : Byte) (p : Panel) : (p.pixelByte cfg b).due = p.due := by
  unfold Panel.pixelByte
  split
  · split
    · split <;> rfl
    · rfl
  · rfl

/-- A payload that takes effect ends no delay, and that of VCOMS begins one (R196). -/
theorem applyPayload_due_pos (hd : 0 < p.due) (c : WireCommand) (l : List Byte) :
    0 < (Panel.applyPayload c l p).due := by
  unfold Panel.applyPayload
  split
  case h_5 => exact Nat.succ_pos _
  all_goals exact hd

theorem dataByte_due_pos (hd : 0 < p.due) (cfg : Cfg) (b : Byte) : 0 < (p.dataByte cfg b).due := by
  unfold Panel.dataByte
  split
  · rwa [pixelByte_due]
  · split
    · exact hd
    · split
      · exact applyPayload_due_pos (p := { p with pending := none }) hd _ _
      · exact hd

/-- The next command byte comes too early (U1). -/
theorem byte_command_of_owed (h : p.Owed) (cfg : Cfg) (b : Byte) : (p.byte cfg 0 b).trust = .refused := by
  obtain ht | hd := h
  · rwa [byte_refused ht]
  · exact byte_command_early hd cfg b

/-- A command byte refuses the panel, and a data byte ends no delay. -/
theorem byte_owed (h : p.Owed) (cfg : Cfg) (dc : Bit) (b : Byte) : (p.byte cfg dc b).Owed := by
  by_cases hdc : dc = 0
  · rw [hdc]
    exact .inl (byte_command_of_owed h cfg b)
  · obtain ht | hd := h
    · rw [byte_refused ht]
      exact .inl ht
    · rw [Panel.byte, if_neg hdc]
      split
      · exact .inr hd
      · exact .inr (dataByte_due_pos hd cfg b)

theorem resetLow_of_owed (h : p.Owed) : p.resetLow.trust = .refused := by
  obtain ht | hd := h
  · simp [Panel.resetLow, ht]
  · exact resetLow_early hd

/-- Every event but a wait leaves the delay owed, or refuses the panel. -/
theorem onEvent_owed (h : p.Owed) (cfg : Cfg) {e : Event} (he : ∀ ms, e ≠ .wait ms) : (p.onEvent cfg e).Owed := by
  cases e with
  | xfer dc bytes => exact List.foldlRecOn bytes _ h fun q hq b _ => byte_owed hq cfg dc b
  | xferFail dc bytes => exact .inl rfl
  | res level =>
    show (if level = 0 then p.resetLow else p.resetHigh).Owed
    split
    · exact .inl (resetLow_of_owed h)
    · unfold Panel.resetHigh
      split
      · exact .inl rfl
      · exact h
  | wait ms => exact absurd rfl (he ms)
  | bl duty => exact h

theorem commandEffect_due_pos {c : WireCommand} (hc : c ∈ [WireCommand.swreset, .slpout, .vcoms, .dispon]) (cfg : Cfg)
    (p : Panel) : 0 < (p.commandEffect cfg c).due := by
  simp only [List.mem_cons, List.not_mem_nil, or_false] at hc
  rcases hc with rfl | rfl | rfl | rfl <;> exact Nat.succ_pos _

/-- After one of the four commands a delay is owed, unless the panel is refused (R270). -/
theorem onEvent_delayCommand (hv : cfg.valid = true) {c : WireCommand}
    (hc : c ∈ [WireCommand.swreset, .slpout, .vcoms, .dispon]) (p : Panel) :
    (p.onEvent cfg (.xfer 0 [cfg.opcode c])).Owed := by
  by_cases h : p.Owed
  · exact onEvent_owed h cfg fun _ => nofun
  · obtain ⟨ht, hd⟩ := not_or.mp h
    rw [onEvent_command hv ht (Nat.eq_zero_of_not_pos hd)]
    exact .inr (commandEffect_due_pos hc cfg _)

/-! ### What an operation does to such a panel -/

@[simp] theorem accepted_panel (i : Instr) (s : State) : (accepted i s).panel = s.panel := by cases i <;> rfl

/-- A micro-operation shows the panel one event at most, and a wait only where it is one (R96, R205). -/
theorem run_panel {m : MicroOp} (hf : s.fault = false) (h : m.run s = .next t) :
    t.panel = s.panel
      ∨ ∃ e, t.panel = s.panel.onEvent s.cfg e ∧ ∀ ms, e = .wait ms → m = .wait ms := by
  rcases run_cases hf h with ⟨-, rfl⟩ | ⟨dc, bytes, -, -, ⟨-, -, rfl⟩ | ⟨-, rfl⟩⟩
  · cases m with
    | resl => exact .inr ⟨.res 0, rfl, fun _ => nofun⟩
    | resh => exact .inr ⟨.res 1, rfl, fun _ => nofun⟩
    | wait ms => exact .inr ⟨.wait ms, rfl, fun _ he => by cases he; rfl⟩
    | blset duty => exact .inr ⟨.bl duty, rfl, fun _ => nofun⟩
    | _ => exact .inl rfl
  · exact .inr ⟨.xfer dc bytes, by cases m <;> rfl, fun _ => nofun⟩
  · exact .inr ⟨.xferFail dc bytes, by cases m <;> rfl, fun _ => nofun⟩

theorem run_owed {m : MicroOp} (hm : ∀ ms, m ≠ .wait ms) (hs : s.panel.Owed) (hf : s.fault = false)
    (h : m.run s = .next t) : t.panel.Owed := by
  obtain hp | ⟨e, hp, he⟩ := run_panel hf h
  · rwa [hp]
  · rw [hp]
    exact onEvent_owed hs s.cfg fun ms hwait => hm ms (he ms hwait)

theorem run_refused {m : MicroOp} (hs : s.panel.trust = .refused) (hf : s.fault = false) (h : m.run s = .next t) :
    t.panel.trust = .refused := by
  obtain hp | ⟨e, hp, -⟩ := run_panel hf h
  · rwa [hp]
  · rw [hp]
    exact onEvent_refused hs s.cfg e

/-- Lowering the reset line refuses such a panel, and nothing that follows in the list mends that. -/
theorem runOps_resl_refused {ms : List MicroOp} (hs : s.panel.Owed) (hf : s.fault = false)
    (h : runOps (.resl :: ms) s = .next t) : t.panel.trust = .refused := by
  rw [runOps_cons_next (run_resl hf) hf] at h
  refine runOps_keeps (P := fun u => u.panel.trust = .refused) (fun _ _ _ => run_refused) ?_ ?_ h
  · exact resetLow_of_owed hs
  · exact hf

/-- Every list that waits, those of `RST` and `INIT`, begins by lowering the reset line (R141, R146). -/
theorem accepted_resets_or_never_waits {i : Instr} (hp : ∀ r g b, i ≠ .pack r g b) (s : State) :
    (∃ ms, (accepted i s).sequence = .resl :: ms) ∨ ∀ m ∈ (accepted i s).sequence, ∀ n, m ≠ .wait n := by
  cases i with
  | rst => exact .inl ⟨_, rfl⟩
  | init => exact .inl ⟨_, rfl⟩
  | pack r g b => exact absurd rfl (hp r g b)
  | dat bytes =>
    refine .inr fun m hm n => ?_
    obtain ⟨_, rfl⟩ := mem_seqDat (sequence_dat (s := accepted (.dat bytes) s) rfl ▸ hm)
    exact nofun
  | win x0 x1 y0 y1 =>
    refine .inr fun m hm n => ?_
    obtain ⟨_, rfl⟩ | ⟨_, rfl⟩ := mem_seqWin (sequence_win (s := accepted (.win x0 x1 y0 y1) s) rfl ▸ hm) <;>
      exact nofun
  | ser colors =>
    refine .inr fun m hm n => ?_
    obtain ⟨_, rfl⟩ | rfl := mem_seqSer (sequence_ser (s := accepted (.ser colors) s) rfl ▸ hm) <;> exact nofun
  | _ =>
    refine .inr fun m hm n => ?_
    rw [List.mem_singleton.mp hm]
    exact nofun

/-- No instruction gives such a panel back, whether it is accepted or not, completes or faults. -/
theorem exec_owed {i : Instr} (hs : s.panel.Owed) (h : exec i s = .next t) : t.panel.Owed := by
  rcases exec_cases h with ⟨-, rfl⟩ | ⟨-, r, g, b, -, rfl⟩ | ⟨hr, hp, hd⟩
  · exact hs
  · exact hs
  · have hf : (accepted i s).fault = false := (accepted_fault i s).trans (ready_iff.mp hr).2.1
    have hacc : (accepted i s).panel.Owed := (accepted_panel i s).symm ▸ hs
    obtain ⟨ms, hms⟩ | hnever := accepted_resets_or_never_waits hp s
    · obtain ⟨u, hu, hend⟩ := drive_cases hd
      have hrefused := runOps_resl_refused hacc hf (hms ▸ hu)
      obtain ⟨-, rfl⟩ | ⟨-, rfl⟩ := hend <;> exact .inl hrefused
    · exact drive_keeps (P := fun u => u.panel.Owed) (fun m hm _ _ => run_owed (hnever m hm)) (fun _ hu => hu)
        hacc hf hd

/-- What every instruction keeps, a host program keeps. -/
theorem runProgram_keeps {P : State → Prop} (hP : ∀ i u v, P u → exec i u = .next v → P v) {is : List Instr}
    (hs : P s) (h : runProgram is s = .next t) : P t := by
  induction is generalizing s with
  | nil => exact Host.Outcome.next.inj h ▸ hs
  | cons i is ih =>
    rcases he : exec i s with u | r | r
    · rw [runProgram_cons he] at h
      exact ih (hP i s u hs he) h
    · rw [runProgram, he] at h
      exact nomatch h
    · rw [runProgram, he] at h
      exact nomatch h

/-- An accepted `CMD` refuses such a panel, by its early byte or by its failed transfer (U1, U9). -/
theorem exec_cmd_of_owed {b : Byte} (hr : s.ready = true) (hs : s.panel.Owed) (h : exec (.cmd b) s = .next t) :
    t.panel.trust = .refused := by
  cases hbus : s.busErr s.xcnt
  · cases (sendCommand_good b hr hbus).symm.trans h
    exact byte_command_of_owed hs s.cfg b
  · have hstop := exec_fixed_stopped (i := .cmd b) (n := 0) (fun _ _ _ => nofun) hr rfl rfl rfl (List.cons_ne_nil b [])
      (fun _ => nofun) hbus
    cases hstop.symm.trans h
    rfl

/-- On a good bus a hand-sent delay command leaves TPC ready, and the panel owed a delay or refused (R270). -/
theorem exec_delayCommand {c : WireCommand} (hc : c ∈ [WireCommand.swreset, .slpout, .vcoms, .dispon])
    (hv : s.cfg.valid = true) (hr : s.ready = true) (hbus : s.busErr s.xcnt = false)
    (h : exec (.cmd (s.cfg.opcode c)) s = .next t) : t.ready = true ∧ t.panel.Owed := by
  obtain ⟨hlife, hf, -⟩ := ready_iff.mp hr
  cases (sendCommand_good (s.cfg.opcode c) hr hbus).symm.trans h
  exact ⟨ready_iff.mpr ⟨hlife, hf, rfl⟩, onEvent_delayCommand hv hc s.panel⟩

/-- Settles O59: `exec_delayCommand` for the command itself; `exec_owed` carries what it says of the panel over every
instruction, and `exec_cmd_of_owed` refuses the panel at the next command. -/
theorem handSentDelayCommandEndsClaims : Obligations.HandSentDelayCommandEndsClaims := by
  intro c s t hc hv hr hbus h
  obtain ⟨hready, howed⟩ := exec_delayCommand hc hv hr hbus h
  exact ⟨howed.not_described, fun i u hu => (exec_owed howed hu).not_described,
    fun is u hu => (runProgram_keeps (P := fun v => v.panel.Owed) (fun _ _ _ => exec_owed) howed hu).not_described,
    fun b u hu => exec_cmd_of_owed hready howed hu⟩

end Sys2Proof.Machine
end
